-- ==== Sys2Proof/Word.lean ====
section
/-! DEFINITION. The data widths of the CORE (spec/00_scope.md R7): register and memory bytes, 16-bit words
(PC, I, stack entries, instruction words), and the operand fields of an instruction word. -/

namespace Sys2Proof

/-- A general register or a memory byte: 8 bits (R7 `V_WIDTH`, R20, R34). -/
abbrev Byte := BitVec 8

/-- PC, I, a stack entry or an instruction word: 16 bits (R7 `ADDR_WIDTH`, R86). -/
abbrev Word := BitVec 16

/-- The 12-bit address field NNN (R86, R94). -/
abbrev Addr := BitVec 12

/-- The 4-bit immediate or sub-selector field N (R86, R94). -/
abbrev Nibble := BitVec 4

/-- A register index 0x0 to 0xF (R20), as the fields X and Y name it (R86). -/
abbrev Reg := Fin 16

end Sys2Proof
end

