-- ==== Sys2Proof/Syntax.lean ====
section
/-! DEFINITION. The 34 instructions of spec/opcode_table.json, one constructor per row, with the operands their
handlers read (spec/30_encoding.md R87). A nibble that is neither a dispatch key nor read is no operand. -/

namespace Sys2Proof

/-- The instruction set (spec/00_scope.md R2: "the whole set"). Each constructor names its table row and its rule. -/
inductive Instr where
  /-- 00E0 `CLS` (R181). -/
  | cls
  /-- 00EE `RET` (R111). -/
  | ret
  /-- 1NNN `JP addr` (R112). -/
  | jp (nnn : Addr)
  /-- 2NNN `CALL addr` (R113). -/
  | call (nnn : Addr)
  /-- 3XNN `SE Vx, byte` (R114). -/
  | seImm (x : Reg) (nn : Byte)
  /-- 4XNN `SNE Vx, byte` (R115). -/
  | sneImm (x : Reg) (nn : Byte)
  /-- 5XY0 `SE Vx, Vy` (R116). -/
  | seReg (x y : Reg)
  /-- 6XNN `LD Vx, byte` (R131). -/
  | ldImm (x : Reg) (nn : Byte)
  /-- 7XNN `ADD Vx, byte` (R132). -/
  | addImm (x : Reg) (nn : Byte)
  /-- 8XY0 `LD Vx, Vy` (R133). -/
  | ldReg (x y : Reg)
  /-- 8XY1 `OR Vx, Vy` (R134). -/
  | orReg (x y : Reg)
  /-- 8XY2 `AND Vx, Vy` (R135). -/
  | andReg (x y : Reg)
  /-- 8XY3 `XOR Vx, Vy` (R136). -/
  | xorReg (x y : Reg)
  /-- 8XY4 `ADD Vx, Vy` (R137). -/
  | addReg (x y : Reg)
  /-- 8XY5 `SUB Vx, Vy` (R138). -/
  | subReg (x y : Reg)
  /-- 8XY6 `SHR Vx` (R139); Y is encoded but not read. -/
  | shr (x : Reg)
  /-- 8XY7 `SUBN Vx, Vy` (R140). -/
  | subnReg (x y : Reg)
  /-- 8XYE `SHL Vx` (R141); Y is encoded but not read. -/
  | shl (x : Reg)
  /-- 9XY0 `SNE Vx, Vy` (R117). -/
  | sneReg (x y : Reg)
  /-- ANNN `LD I, addr` (R161). -/
  | ldI (nnn : Addr)
  /-- BNNN `JP V0, addr` (R118). -/
  | jpV0 (nnn : Addr)
  /-- CXNN `RND Vx, byte` (R142). -/
  | rnd (x : Reg) (nn : Byte)
  /-- DXYN `DRW Vx, Vy, nibble` (R182). -/
  | drw (x y : Reg) (n : Nibble)
  /-- EX9E `SKP Vx` (R201). -/
  | skp (x : Reg)
  /-- EXA1 `SKNP Vx` (R202). -/
  | sknp (x : Reg)
  /-- FX07 `LD Vx, DT` (R203). -/
  | ldVxDt (x : Reg)
  /-- FX0A `LD Vx, K` (R204). -/
  | ldVxK (x : Reg)
  /-- FX15 `LD DT, Vx` (R205). -/
  | ldDtVx (x : Reg)
  /-- FX18 `LD ST, Vx` (R206). -/
  | ldStVx (x : Reg)
  /-- FX1E `ADD I, Vx` (R162). -/
  | addI (x : Reg)
  /-- FX29 `LD F, Vx` (R163). -/
  | ldF (x : Reg)
  /-- FX33 `LD B, Vx` (R164). -/
  | ldB (x : Reg)
  /-- FX55 `LD [I], Vx` (R165). -/
  | storeRegs (x : Reg)
  /-- FX65 `LD Vx, [I]` (R166). -/
  | loadRegs (x : Reg)
  deriving DecidableEq, Repr

end Sys2Proof
end

