-- ==== Sys2Proof/WellFormed.lean ====
section
/-! DEFINITION. Well-formedness of an instruction: every operand, as a number, fits the bit window the word gives it
(spec/30_encoding.md R86, R94). `Instr` carries operands of exactly these widths, so every term of `Instr` passes;
the check is on the raw number and its window, and it refuses one that is too large. -/

namespace Sys2Proof

/-- The operand windows of an instruction word (R86). -/
inductive Window where
  | x | y | n | nn | nnn
  deriving DecidableEq, Repr

/-- Lowest bit of a window (R86). -/
def windowLo : Window → Nat
  | .x => 8
  | .y => 4
  | .n => 0
  | .nn => 0
  | .nnn => 0

/-- Width of a window (R86). -/
def windowWidth : Window → Nat
  | .x => 4
  | .y => 4
  | .n => 4
  | .nn => 8
  | .nnn => 12

/-- An operand as a raw number in a window. -/
structure Operand where
  window : Window
  value : Nat
  deriving DecidableEq, Repr

/-- The number fits its window: registers and nibbles 0..15, bytes 0..255, addresses 0..0xFFF (R94, R95). -/
def operandFits (o : Operand) : Bool := decide (o.value < 2 ^ windowWidth o.window)

/-- The operands of an instruction, most significant window first (the forms of R87). -/
def operandsOf : Instr → List Operand
  | .cls => []
  | .ret => []
  | .jp nnn => [⟨.nnn, nnn.toNat⟩]
  | .call nnn => [⟨.nnn, nnn.toNat⟩]
  | .seImm x nn => [⟨.x, x.val⟩, ⟨.nn, nn.toNat⟩]
  | .sneImm x nn => [⟨.x, x.val⟩, ⟨.nn, nn.toNat⟩]
  | .seReg x y => [⟨.x, x.val⟩, ⟨.y, y.val⟩]
  | .ldImm x nn => [⟨.x, x.val⟩, ⟨.nn, nn.toNat⟩]
  | .addImm x nn => [⟨.x, x.val⟩, ⟨.nn, nn.toNat⟩]
  | .ldReg x y => [⟨.x, x.val⟩, ⟨.y, y.val⟩]
  | .orReg x y => [⟨.x, x.val⟩, ⟨.y, y.val⟩]
  | .andReg x y => [⟨.x, x.val⟩, ⟨.y, y.val⟩]
  | .xorReg x y => [⟨.x, x.val⟩, ⟨.y, y.val⟩]
  | .addReg x y => [⟨.x, x.val⟩, ⟨.y, y.val⟩]
  | .subReg x y => [⟨.x, x.val⟩, ⟨.y, y.val⟩]
  | .shr x => [⟨.x, x.val⟩]
  | .subnReg x y => [⟨.x, x.val⟩, ⟨.y, y.val⟩]
  | .shl x => [⟨.x, x.val⟩]
  | .sneReg x y => [⟨.x, x.val⟩, ⟨.y, y.val⟩]
  | .ldI nnn => [⟨.nnn, nnn.toNat⟩]
  | .jpV0 nnn => [⟨.nnn, nnn.toNat⟩]
  | .rnd x nn => [⟨.x, x.val⟩, ⟨.nn, nn.toNat⟩]
  | .drw x y n => [⟨.x, x.val⟩, ⟨.y, y.val⟩, ⟨.n, n.toNat⟩]
  | .skp x => [⟨.x, x.val⟩]
  | .sknp x => [⟨.x, x.val⟩]
  | .ldVxDt x => [⟨.x, x.val⟩]
  | .ldVxK x => [⟨.x, x.val⟩]
  | .ldDtVx x => [⟨.x, x.val⟩]
  | .ldStVx x => [⟨.x, x.val⟩]
  | .addI x => [⟨.x, x.val⟩]
  | .ldF x => [⟨.x, x.val⟩]
  | .ldB x => [⟨.x, x.val⟩]
  | .storeRegs x => [⟨.x, x.val⟩]
  | .loadRegs x => [⟨.x, x.val⟩]

/-- Every operand fits its window. -/
def wellFormed (i : Instr) : Bool := (operandsOf i).all operandFits

end Sys2Proof
end

