-- ==== Sys2Proof/Decode.lean ====
section
/-! DEFINITION. The decoder of spec/30_encoding.md (R83, R86, R88 to R93), total on any bytes, and after it the encoder
(the canonical words of R95). The decoder examines the dispatch bits of R88 and nothing else, so non-canonical words
select the handler of R91. A word that selects no handler is rejected by the name of its family. -/

namespace Sys2Proof

/-- Why the decoder selects no handler (R93). The cycle then executes a no-op (R92): this is no fault. -/
inductive Reject where
  /-- Family 0x0 with IR[3:0] not 0 or E. -/
  | family0 (n : Nibble)
  /-- Family 0x8 with IR[3:0] in 8..D or F. -/
  | family8 (n : Nibble)
  /-- Family 0xE with IR[3:0] not 1 or E. -/
  | familyE (n : Nibble)
  /-- Family 0xF with an IR[7:0] that R90 does not list. -/
  | familyF (nn : Byte)
  /-- Fewer than two bytes were given: no instruction word. -/
  | truncated
  deriving DecidableEq, Repr

/-! ## Fields of the word (R86) -/

/-- family = IR[15:12]. -/
def fieldFamily (w : Word) : Nibble := w.extractLsb' 12 4

/-- X = IR[11:8]. -/
def fieldX (w : Word) : Reg := (w.extractLsb' 8 4).toFin

/-- Y = IR[7:4]. -/
def fieldY (w : Word) : Reg := (w.extractLsb' 4 4).toFin

/-- N = IR[3:0]. -/
def fieldN (w : Word) : Nibble := w.extractLsb' 0 4

/-- NN = IR[7:0]. -/
def fieldNN (w : Word) : Byte := w.extractLsb' 0 8

/-- NNN = IR[11:0]. -/
def fieldNNN (w : Word) : Addr := w.extractLsb' 0 12

/-! ## Dispatch (R88 to R90) -/

/-- Second level of family 0x0, on IR[3:0] (R90). -/
def decodeFamily0 (w : Word) : Except Reject Instr :=
  match (fieldN w).toNat with
  | 0x0 => .ok .cls
  | 0xE => .ok .ret
  | _ => .error (.family0 (fieldN w))

/-- Second level of family 0x8, on IR[3:0] (R90). -/
def decodeFamily8 (w : Word) : Except Reject Instr :=
  match (fieldN w).toNat with
  | 0x0 => .ok (.ldReg (fieldX w) (fieldY w))
  | 0x1 => .ok (.orReg (fieldX w) (fieldY w))
  | 0x2 => .ok (.andReg (fieldX w) (fieldY w))
  | 0x3 => .ok (.xorReg (fieldX w) (fieldY w))
  | 0x4 => .ok (.addReg (fieldX w) (fieldY w))
  | 0x5 => .ok (.subReg (fieldX w) (fieldY w))
  | 0x6 => .ok (.shr (fieldX w))
  | 0x7 => .ok (.subnReg (fieldX w) (fieldY w))
  | 0xE => .ok (.shl (fieldX w))
  | _ => .error (.family8 (fieldN w))

/-- Second level of family 0xE, on IR[3:0] (R90). -/
def decodeFamilyE (w : Word) : Except Reject Instr :=
  match (fieldN w).toNat with
  | 0xE => .ok (.skp (fieldX w))
  | 0x1 => .ok (.sknp (fieldX w))
  | _ => .error (.familyE (fieldN w))

/-- Second level of family 0xF, on IR[7:0] (R90). -/
def decodeFamilyF (w : Word) : Except Reject Instr :=
  match (fieldNN w).toNat with
  | 0x07 => .ok (.ldVxDt (fieldX w))
  | 0x0A => .ok (.ldVxK (fieldX w))
  | 0x15 => .ok (.ldDtVx (fieldX w))
  | 0x18 => .ok (.ldStVx (fieldX w))
  | 0x1E => .ok (.addI (fieldX w))
  | 0x29 => .ok (.ldF (fieldX w))
  | 0x33 => .ok (.ldB (fieldX w))
  | 0x55 => .ok (.storeRegs (fieldX w))
  | 0x65 => .ok (.loadRegs (fieldX w))
  | _ => .error (.familyF (fieldNN w))

/-- The decoder: dispatch on the family (R89). A 4-bit family that is none of 0x0 to 0xE is 0xF. -/
def decodeWord (w : Word) : Except Reject Instr :=
  match (fieldFamily w).toNat with
  | 0x0 => decodeFamily0 w
  | 0x1 => .ok (.jp (fieldNNN w))
  | 0x2 => .ok (.call (fieldNNN w))
  | 0x3 => .ok (.seImm (fieldX w) (fieldNN w))
  | 0x4 => .ok (.sneImm (fieldX w) (fieldNN w))
  | 0x5 => .ok (.seReg (fieldX w) (fieldY w))
  | 0x6 => .ok (.ldImm (fieldX w) (fieldNN w))
  | 0x7 => .ok (.addImm (fieldX w) (fieldNN w))
  | 0x8 => decodeFamily8 w
  | 0x9 => .ok (.sneReg (fieldX w) (fieldY w))
  | 0xA => .ok (.ldI (fieldNNN w))
  | 0xB => .ok (.jpV0 (fieldNNN w))
  | 0xC => .ok (.rnd (fieldX w) (fieldNN w))
  | 0xD => .ok (.drw (fieldX w) (fieldY w) (fieldN w))
  | 0xE => decodeFamilyE w
  | _ => decodeFamilyF w

/-! ## Bytes (R61, R83: big-endian) -/

/-- The instruction word of two bytes: the first is bits 15–8, the second bits 7–0 (R61, R83). -/
def wordOfBytes (hi lo : Byte) : Word := hi ++ lo

/-- Bits 15–8 of a word: the byte at the lower address. -/
def highByte (w : Word) : Byte := w.extractLsb' 8 8

/-- Bits 7–0 of a word: the byte at the higher address. -/
def lowByte (w : Word) : Byte := w.extractLsb' 0 8

/-- The decoder over a byte sequence: it takes two bytes (R96: every instruction is 2 bytes) and leaves the rest. -/
def decode : List Byte → Except Reject (Instr × List Byte)
  | hi :: lo :: rest =>
    match decodeWord (wordOfBytes hi lo) with
    | .ok i => .ok (i, rest)
    | .error r => .error r
  | _ => .error .truncated

/-! ## Encoder (canonical words, R95) -/

/-- A word of the address form (R87). -/
def packNNN (family : Nibble) (nnn : Addr) : Word := family ++ nnn

/-- A word of the register-immediate and register-sub-byte forms (R87). -/
def packXNN (family : Nibble) (x : Reg) (nn : Byte) : Word := family ++ BitVec.ofFin (w := 4) x ++ nn

/-- A word of the register-register forms (R87). -/
def packXYN (family : Nibble) (x y : Reg) (n : Nibble) : Word :=
  family ++ BitVec.ofFin (w := 4) x ++ BitVec.ofFin (w := 4) y ++ n

/-- The canonical word of an instruction: the pattern of R95, with 0 in every nibble the pattern fixes at 0. -/
def encode : Instr → Word
  | .cls => 0x00E0
  | .ret => 0x00EE
  | .jp nnn => packNNN 0x1 nnn
  | .call nnn => packNNN 0x2 nnn
  | .seImm x nn => packXNN 0x3 x nn
  | .sneImm x nn => packXNN 0x4 x nn
  | .seReg x y => packXYN 0x5 x y 0x0
  | .ldImm x nn => packXNN 0x6 x nn
  | .addImm x nn => packXNN 0x7 x nn
  | .ldReg x y => packXYN 0x8 x y 0x0
  | .orReg x y => packXYN 0x8 x y 0x1
  | .andReg x y => packXYN 0x8 x y 0x2
  | .xorReg x y => packXYN 0x8 x y 0x3
  | .addReg x y => packXYN 0x8 x y 0x4
  | .subReg x y => packXYN 0x8 x y 0x5
  | .shr x => packXYN 0x8 x 0 0x6
  | .subnReg x y => packXYN 0x8 x y 0x7
  | .shl x => packXYN 0x8 x 0 0xE
  | .sneReg x y => packXYN 0x9 x y 0x0
  | .ldI nnn => packNNN 0xA nnn
  | .jpV0 nnn => packNNN 0xB nnn
  | .rnd x nn => packXNN 0xC x nn
  | .drw x y n => packXYN 0xD x y n
  | .skp x => packXNN 0xE x 0x9E
  | .sknp x => packXNN 0xE x 0xA1
  | .ldVxDt x => packXNN 0xF x 0x07
  | .ldVxK x => packXNN 0xF x 0x0A
  | .ldDtVx x => packXNN 0xF x 0x15
  | .ldStVx x => packXNN 0xF x 0x18
  | .addI x => packXNN 0xF x 0x1E
  | .ldF x => packXNN 0xF x 0x29
  | .ldB x => packXNN 0xF x 0x33
  | .storeRegs x => packXNN 0xF x 0x55
  | .loadRegs x => packXNN 0xF x 0x65

/-- The two bytes of an instruction as memory holds them, the byte at the lower address first (R61). -/
def encodeBytes (i : Instr) : List Byte := [highByte (encode i), lowByte (encode i)]

/-- The bits of a word that the decoder examines or that the selected handler reads: the table's mask together with
the operand windows (R87, R88). The other bits are free in a non-canonical word (R91). -/
def usedBits : Instr → Word
  | .cls => 0xF00F
  | .ret => 0xF00F
  | .seReg _ _ => 0xFFF0
  | .sneReg _ _ => 0xFFF0
  | .shr _ => 0xFF0F
  | .shl _ => 0xFF0F
  | .skp _ => 0xFF0F
  | .sknp _ => 0xFF0F
  | .jp _ => 0xFFFF
  | .call _ => 0xFFFF
  | .seImm _ _ => 0xFFFF
  | .sneImm _ _ => 0xFFFF
  | .ldImm _ _ => 0xFFFF
  | .addImm _ _ => 0xFFFF
  | .ldReg _ _ => 0xFFFF
  | .orReg _ _ => 0xFFFF
  | .andReg _ _ => 0xFFFF
  | .xorReg _ _ => 0xFFFF
  | .addReg _ _ => 0xFFFF
  | .subReg _ _ => 0xFFFF
  | .subnReg _ _ => 0xFFFF
  | .ldI _ => 0xFFFF
  | .jpV0 _ => 0xFFFF
  | .rnd _ _ => 0xFFFF
  | .drw _ _ _ => 0xFFFF
  | .ldVxDt _ => 0xFFFF
  | .ldVxK _ => 0xFFFF
  | .ldDtVx _ => 0xFFFF
  | .ldStVx _ => 0xFFFF
  | .addI _ => 0xFFFF
  | .ldF _ => 0xFFFF
  | .ldB _ => 0xFFFF
  | .storeRegs _ => 0xFFFF
  | .loadRegs _ => 0xFFFF

/-- The instruction the decoder reads from the bits `w`, numbered as spec/opcode_table.json numbers them: the table
gives every row 16 bits, the one word of the instruction, and bits above `nbits` are 0. -/
def decodeTableWord (nbits w : Nat) : Option Instr :=
  let word : Word := BitVec.ofNat 16 (w % 2 ^ nbits)
  match decode [highByte word, lowByte word] with
  | .ok (i, _) => some i
  | .error _ => none

end Sys2Proof
end

