-- ==== Sys2Proof/Config.lean ====
section
/-! DEFINITION. What an implementation fixes (spec/00_scope.md R7, R8): the fixed sizes as numbers, the parameters
`FB_W`, `FB_H`, `FONT` as a structure, their default values, and the one free value of the CORE, the random byte. -/

namespace Sys2Proof

namespace Config

/-- `MEM_SIZE` (R7): addresses 0x000 to 0xFFF. -/
def memSize : Nat := 4096

/-- `PROG_START` (R7): program start and reset PC. -/
def progStart : Nat := 0x200

/-- `FONT_BASE` (R7, R35). -/
def fontBase : Nat := 0x050

/-- `FONT_SIZE` (R7): 16 glyphs of 5 bytes. -/
def fontSize : Nat := 80

/-- `MAX_ROM` (R7): 4096 − 0x200. -/
def maxRom : Nat := 3584

/-- `STACK_DEPTH` (R7). -/
def stackDepth : Nat := 16

/-- RAND_IN (spec/10_state.md R44, R45): the byte that `RandByte()` returns at the n-th execution of CXNN since reset.
A free value: it has no body, so nothing can be proved of it and every claim holds for every draw
(D21, U3 "any value"). DESIGN CHOICE of form: safe, notes/assumptions/3.md. -/
opaque randByte : Nat → Byte

end Config

/-- The parameters "the model takes as arguments" (R7): the framebuffer's width and height (R8, positive) and the 80
font bytes (spec/10_state.md R36). They stand in `State.params`, which nothing writes (notes/assumptions/4.md: safe). -/
structure Params where
  /-- `FB_W`: framebuffer width in pixels. -/
  fbW : Nat
  /-- `FB_H`: framebuffer height in pixels. -/
  fbH : Nat
  /-- `FONT`: the 80 bytes RESET writes at 0x050. -/
  font : Vector Byte 80
  deriving DecidableEq, Repr

namespace Config

/-- Glyphs 0 to 7 of the table of spec/10_state.md R36. -/
def fontLow : List Byte :=
  [0xF0, 0x90, 0x90, 0x90, 0xF0] ++ [0x20, 0x60, 0x20, 0x20, 0x70] ++
  [0xF0, 0x10, 0xF0, 0x80, 0xF0] ++ [0xF0, 0x10, 0xF0, 0x10, 0xF0] ++
  [0x90, 0x90, 0xF0, 0x10, 0x10] ++ [0xF0, 0x80, 0xF0, 0x10, 0xF0] ++
  [0xF0, 0x80, 0xF0, 0x90, 0xF0] ++ [0xF0, 0x10, 0x20, 0x40, 0x40]

/-- Glyphs 8 to F of the table of spec/10_state.md R36. -/
def fontHigh : List Byte :=
  [0xF0, 0x90, 0xF0, 0x90, 0xF0] ++ [0xF0, 0x90, 0xF0, 0x10, 0xF0] ++
  [0xF0, 0x90, 0xF0, 0x90, 0x90] ++ [0xE0, 0x90, 0xE0, 0x90, 0xE0] ++
  [0xF0, 0x80, 0x80, 0x80, 0xF0] ++ [0xE0, 0x90, 0x90, 0x90, 0xE0] ++
  [0xF0, 0x80, 0xF0, 0x80, 0xF0] ++ [0xF0, 0x80, 0xF0, 0x80, 0x80]

/-- The default `FONT` (R36, D2: the spec's own default, from general knowledge). -/
def defaultFont : Vector Byte 80 := ⟨(fontLow ++ fontHigh).toArray, rfl⟩

/-- The default parameters: 64 × 32 (R8, D1) and the font of R36 (D2). -/
def defaultParams : Params := { fbW := 64, fbH := 32, font := defaultFont }

end Config

end Sys2Proof
end

