-- ==== Sys2Proof/Machine/State.lean ====
section
/-! DEFINITION. The Machine State of spec/10_state.md (R20 to R46) as plain data, the reasons a step could stop, and
the state after RESET (R46, spec/70_reset_and_hazards.md R260). -/

namespace Sys2Proof.Machine

/-- The fault codes of spec/60_exceptions.md R220. A fault of the CORE is recorded in the state (`State.faultCode`),
because the spec describes its entry whole (R226); it is no `Fault` below. -/
inductive FaultCode where
  /-- 0 NONE. -/
  | none
  /-- 1 LOAD_TOO_LARGE (R227), raised by the host's LOAD. -/
  | loadTooLarge
  /-- 2 STACK_OVERFLOW (R221), raised by 2NNN. -/
  | stackOverflow
  /-- 3 STACK_UNDERFLOW (R222), raised by 00EE. -/
  | stackUnderflow
  /-- 4 MEM_OUT_OF_RANGE (R223), raised by DXYN, FX33, FX55, FX65. -/
  | memOutOfRange
  /-- 5 FETCH_OUT_OF_RANGE (R224), raised by the cycle's Fetch. -/
  | fetchOutOfRange
  /-- 6 KEY_OUT_OF_RANGE (R225), raised by EX9E and EXA1. -/
  | keyOutOfRange
  deriving DecidableEq, Repr

/-- Reasons a step stops outside the spec's own machine. There are none: every fatal condition of the CORE is a next
state that holds the fault record (R226), and a STEP of a faulted machine changes nothing (R81). Nothing raises it
(safe: notes/assumptions/7.md). -/
inductive Fault where
  deriving DecidableEq, Repr

/-- Reasons an instruction has no meaning in the model. -/
inductive Refusal where
  /-- Raised by an arm of `exec` whose instruction is not modelled; safe. No arm raises it now. -/
  | notModelled (mnemonic : String)
  deriving DecidableEq, Repr

/-- Memory (R34): (address, byte) pairs, addresses strictly rising, no entry equal to what an unlisted address reads
as (`Memory.wf`). An unlisted address reads as the reset contents (`memDefault`, R46). -/
abbrev Memory := List Host.Cell

/-- The framebuffer (R37): the row-major linear indices (R180) of the pixels that are on, strictly rising. -/
abbrev Framebuffer := List Nat

/-- Machine State. Every field but the last two is state the spec names (R20 to R39). -/
structure State where
  /-- V0–VF (R20, R21). -/
  regs : Vector Byte 16
  /-- The index register I (R24). -/
  i : Word
  /-- The program counter (R26). -/
  pc : Word
  /-- The stack pointer, 0..16: the number of occupied entries (R29). -/
  sp : Fin 17
  /-- STACK[0]–STACK[15] (R29). -/
  stack : Vector Word 16
  /-- The delay timer DT (R31). -/
  dt : Byte
  /-- The sound timer ST (R32). -/
  st : Byte
  /-- The current instruction word IR (R33). -/
  ir : Word
  /-- Memory MEM (R34). -/
  mem : Memory
  /-- The framebuffer FB (R37). -/
  fb : Framebuffer
  /-- The keypad snapshot KEYS[0]–KEYS[15] (R38). -/
  keys : Vector Bool 16
  /-- FAULT_CODE (R39). -/
  faultCode : FaultCode
  /-- FAULT_PC (R39). -/
  faultPc : Word
  /-- The model's own: how many random bytes CXNN has consumed (notes/assumptions/3.md). -/
  randDraws : Nat
  /-- The implementation parameters (R7); nothing writes them (notes/assumptions/4.md). -/
  params : Params
  deriving DecidableEq, Repr

/-- What every meaning answers. -/
abbrev Result := Host.Outcome State Fault Refusal

/-- The state after RESET for given parameters: the table of R46. Memory lists nothing, since an unlisted address
reads as the reset contents. -/
def State.resetWith (p : Params) : State where
  regs := Vector.replicate 16 0
  i := 0
  pc := 0x200
  sp := 0
  stack := Vector.replicate 16 0
  dt := 0
  st := 0
  ir := 0
  mem := []
  fb := []
  keys := Vector.replicate 16 false
  faultCode := .none
  faultPc := 0
  randDraws := 0
  params := p

/-- The state after RESET with the spec's default parameters (R46; D1, D2). -/
def State.reset : State := State.resetWith Config.defaultParams

end Sys2Proof.Machine
end

