-- ==== Sys2Proof/Machine/Ops.lean ====
section
/-! DEFINITION. The named operations over memory, registers, the call stack and the framebuffer, and taking a fault
(spec/60_exceptions.md R226). All reads and writes of the meanings go through these. -/

namespace Sys2Proof.Machine

/-! ## Memory (spec/20_memory.md) -/

/-- What an address that memory does not list reads as: the reset contents of R46, a FONT byte at 0x050..0x09F and
0 elsewhere. -/
def memDefault (font : Vector Byte 80) (a : Nat) : Byte :=
  if h : 0x050 ≤ a ∧ a < 0x0A0 then font[a - 0x050]'(by omega) else 0

/-- The listed byte at `a`. -/
def Memory.lookup (a : Nat) : Memory → Option Byte
  | [] => none
  | (b, v) :: m => if b = a then some v else Memory.lookup a m

/-- `MemRead(a, 1)` (R13). -/
def Memory.read (font : Vector Byte 80) (m : Memory) (a : Nat) : Byte :=
  (Memory.lookup a m).getD (memDefault font a)

/-- The list without an entry at `a`. -/
def Memory.erase (a : Nat) (m : Memory) : Memory := m.filter fun c => c.1 != a

/-- The list with an entry for `a` put before the first higher address. -/
def Memory.insert (a : Nat) (v : Byte) : Memory → Memory
  | [] => [(a, v)]
  | c :: m => if a < c.1 then (a, v) :: c :: m else c :: Memory.insert a v m

/-- `MemWrite(a, 1, v)` (R13), in canonical form: writing what an unlisted address reads as removes the entry. -/
def Memory.write (font : Vector Byte 80) (m : Memory) (a : Nat) (v : Byte) : Memory :=
  if v = memDefault font a then Memory.erase a m else Memory.insert a v (Memory.erase a m)

/-- The canonical form: addresses strictly rising and below 4096, no entry equal to what an unlisted address reads. -/
abbrev Memory.wf (font : Vector Byte 80) (m : Memory) : Prop :=
  m.Pairwise (fun c d => c.1 < d.1) ∧ ∀ c ∈ m, c.1 < Config.memSize ∧ c.2 ≠ memDefault font c.1

/-- The byte of the machine's memory at `a`. -/
def State.byte (s : State) (a : Nat) : Byte := Memory.read s.params.font s.mem a

/-- Write one byte of the machine's memory. -/
def State.setByte (s : State) (a : Nat) (v : Byte) : State :=
  { s with mem := Memory.write s.params.font s.mem a v }

/-- Write bytes at rising addresses from `a` on (the order of R61, R165, R266). -/
def State.setBytes (s : State) (a : Nat) : List Byte → State
  | [] => s
  | v :: vs => State.setBytes (s.setByte a v) (a + 1) vs

/-- Read `n` bytes at rising addresses from `a` on. -/
def State.bytes (s : State) (a n : Nat) : List Byte := (List.range n).map fun k => s.byte (a + k)

/-! ## Registers (spec/00_scope.md R12, spec/10_state.md R20) -/

/-- `V[x]`. -/
def State.v (s : State) (x : Reg) : Byte := s.regs[x.val]

/-- `V[x] <- b`. -/
def State.setV (s : State) (x : Reg) (b : Byte) : State := { s with regs := s.regs.set x.val b }

/-- The index of the flag register VF (R21). -/
def vf : Reg := 15

/-- `I <- a`. -/
def State.setI (s : State) (a : Word) : State := { s with i := a }

/-- `PC <- a`. -/
def State.setPc (s : State) (a : Word) : State := { s with pc := a }

/-- `skip`: PC advanced by a further 2 (R15) where the condition holds. -/
def State.skipIf (s : State) (c : Bool) : State := if c then s.setPc (s.pc + 2) else s

/-- `DT <- b`. -/
def State.setDt (s : State) (b : Byte) : State := { s with dt := b }

/-- `ST <- b`. -/
def State.setSt (s : State) (b : Byte) : State := { s with st := b }

/-- `KEYS[k]` (R38). -/
def State.key (s : State) (k : Fin 16) : Bool := s.keys[k.val]

/-- Load V0..VX from the bytes at `a`, `a + 1`, … (R166). Register k receives the byte at `a + k`; the order of the
loads has no effect, since no load changes memory. -/
def State.loadV (s : State) (x : Reg) (a : Nat) : State :=
  { s with regs := Vector.ofFn fun k : Fin 16 => if k.val ≤ x.val then s.byte (a + k.val) else s.v k }

/-! ## Call stack (spec/10_state.md R29, R30) -/

/-- Push: `STACK[SP] <- w; SP <- SP + 1`. The caller has checked SP < 16. -/
def State.push (s : State) (w : Word) (h : s.sp.val < 16) : State :=
  { s with stack := s.stack.set s.sp.val w, sp := ⟨s.sp.val + 1, by omega⟩ }

/-- The top entry `STACK[SP − 1]`. The caller has checked SP > 0. -/
def State.top (s : State) (h : 0 < s.sp.val) : Word := s.stack[s.sp.val - 1]'(by omega)

/-- `SP <- SP − 1`; the entry keeps its value (R30, D24). -/
def State.drop (s : State) : State := { s with sp := ⟨s.sp.val - 1, by omega⟩ }

/-! ## Framebuffer (spec/43_display.md R180) -/

/-- The row-major linear index of pixel (x, y). -/
def pixelIndex (fbW x y : Nat) : Nat := y * fbW + x

/-- The set with `p` put before the first higher index. -/
def Framebuffer.insert (p : Nat) : Framebuffer → Framebuffer
  | [] => [p]
  | q :: f => if p < q then p :: q :: f else q :: Framebuffer.insert p f

/-- XOR the pixel at index `p` with 1. -/
def Framebuffer.toggle (p : Nat) (f : Framebuffer) : Framebuffer :=
  if f.contains p then f.filter (fun q => q != p) else Framebuffer.insert p f

/-- The canonical form: indices strictly rising, each a pixel of the `fbW × fbH` grid. -/
abbrev Framebuffer.wf (fbW fbH : Nat) (f : Framebuffer) : Prop :=
  f.Pairwise (· < ·) ∧ ∀ p ∈ f, p < fbW * fbH

/-- `FB[y][x] = 1`, for x < FB_W and y < FB_H (R37); false outside the grid. -/
def State.pixel (s : State) (x y : Nat) : Bool :=
  decide (x < s.params.fbW) && decide (y < s.params.fbH) && s.fb.contains (pixelIndex s.params.fbW x y)

/-- `FB <- f`. -/
def State.setFb (s : State) (f : Framebuffer) : State := { s with fb := f }

/-! ## Taking a fault (spec/60_exceptions.md) -/

/-- Fault entry (R226): FAULT_CODE and FAULT_PC are written, nothing else. Control goes nowhere: the machine is stuck
until RESET (R81, R230). There is no return from a fault; RESET (`State.resetWith`) alone leaves the state (R263). -/
def State.takeFault (s : State) (c : FaultCode) (fetchPc : Word) : State :=
  { s with faultCode := c, faultPc := fetchPc }

/-- The address the current instruction was fetched from: PC is that address plus 2 until a handler writes PC (R26),
and every handler raises before its first write (R64). DEDUCED, safe: notes/assumptions/2.md. -/
def State.fetchPc (s : State) : Word := s.pc - 2

/-- `raise Fault(c)` in a handler (R14, R226). -/
def State.raise (s : State) (c : FaultCode) : State := s.takeFault c s.fetchPc

/-- The 3 bits of FAULT_CODE (R220). -/
def faultBits : FaultCode → BitVec 3
  | .none => 0
  | .loadTooLarge => 1
  | .stackOverflow => 2
  | .stackUnderflow => 3
  | .memOutOfRange => 4
  | .fetchOutOfRange => 5
  | .keyOutOfRange => 6

end Sys2Proof.Machine
end

