-- ==== Sys2Proof/Machine/Cycle.lean ====
section
/-! DEFINITION. The parts of a cycle around the handler: Fetch, the no-op of an undefined word, the Tick
(spec/30_encoding.md R80 to R85, R92; spec/60_exceptions.md R240), and the placing of a word where the next Fetch
reads it. -/

namespace Sys2Proof.Machine

/-- The fetch range check: PC ≤ 0xFFE (R82). -/
def State.canFetch (s : State) : Bool := decide (s.pc.toNat ≤ 0xFFE)

/-- The word at PC, big-endian (R83). -/
def State.fetchedWord (s : State) : Word := wordOfBytes (s.byte s.pc.toNat) (s.byte (s.pc.toNat + 1))

/-- Fetch (R83): IR receives the word at PC, and PC advances by 2. -/
def State.fetch (s : State) : State := { s with ir := s.fetchedWord, pc := s.pc + 2 }

/-- A cycle whose PC cannot be fetched (R82, R224): FAULT_PC is that PC, and PC and IR are unchanged. -/
def State.fetchFault (s : State) : State := s.takeFault .fetchOutOfRange s.pc

/-- Execute of a word that selects no handler: a no-op (R92). -/
def execUndefined (s : State) : Result := .next s

/-- One timer of the Tick: decrement while above 0, never below (R240). -/
def tickTimer (b : Byte) : Byte := if b = 0 then 0 else b - 1

/-- The Tick (R240). -/
def State.tick (s : State) : State := { s with dt := tickTimer s.dt, st := tickTimer s.st }

/-- The end of a cycle: the Tick, which a cycle that faulted leaves out (R84, R85). -/
def State.endCycle (s : State) : State := if s.faultCode = .none then s.tick else s

/-- The end of a cycle after Execute. -/
def finishCycle : Result → Result
  | .next s => .next s.endCycle
  | .fault f => .fault f
  | .refused r => .refused r

/-- A state with its fault record cleared and a PC that Fetch accepts: what Fetch needs before it reads (R81, R82).
It stands for the RESET that a stuck machine needs (notes/assumptions/8.md). -/
def State.readyToFetch (s : State) : State :=
  { s with faultCode := .none, pc := if s.pc.toNat ≤ 0xFFE then s.pc else BitVec.ofNat 16 Config.progStart }

/-- The word stored big-endian at PC. -/
def State.placeWord (s : State) (w : Word) : State := s.setBytes s.pc.toNat [highByte w, lowByte w]

end Sys2Proof.Machine
end

