-- ==== Sys2Proof/Machine/Operands.lean ====
section
/-! DEFINITION. The operand forms of spec/30_encoding.md R94 and the values the handlers derive from their operands:
addresses through I, the digit's glyph, BCD digits, the sprite origin, the key an operand names. -/

namespace Sys2Proof.Machine

/-- NNN as a 16-bit PC or I value: zero-extended, no shift, no scale (R94). -/
def addrWord (nnn : Addr) : Word := nnn.setWidth 16

/-- `zext_16` of a register (R11). -/
def regWord (b : Byte) : Word := b.setWidth 16

/-- Effective address `I + k`: a natural number, no wrap and no mask (R63, R160). -/
def State.effAddr (s : State) (k : Nat) : Nat := s.i.toNat + k

/-- Every access at `I`..`I + k` is inside memory: `I + k ≤ 0xFFF` (R63). -/
def State.reaches (s : State) (k : Nat) : Bool := decide (s.effAddr k ≤ 0xFFF)

/-- The range check of DXYN: N = 0, or I + N − 1 ≤ 0xFFF (R183). -/
def State.spriteInRange (s : State) (n : Nibble) : Bool :=
  n.toNat == 0 || s.reaches (n.toNat - 1)

/-- The address of the glyph of a digit: FONT_BASE + 5 × value, the value not masked (R163). -/
def glyphAddr (b : Byte) : Word := BitVec.ofNat 16 (Config.fontBase + 5 * b.toNat)

/-- The decimal digits of a byte: hundreds, tens, ones (R164). -/
def bcdDigits (b : Byte) : List Byte :=
  [BitVec.ofNat 8 (b.toNat / 100), BitVec.ofNat 8 (b.toNat / 10 % 10), BitVec.ofNat 8 (b.toNat % 10)]

/-- V0..VX as bytes, in order (R165). -/
def State.regsUpTo (s : State) (x : Reg) : List Byte := s.regs.toList.take (x.val + 1)

/-- The sprite's x origin: `V[X] mod FB_W` (R184). -/
def State.originX (s : State) (x : Reg) : Nat := (s.v x).toNat % s.params.fbW

/-- The sprite's y origin: `V[Y] mod FB_H` (R184). -/
def State.originY (s : State) (y : Reg) : Nat := (s.v y).toNat % s.params.fbH

/-- The state of the key that `V[X]` names; none where `V[X] > 15` (R200). -/
def State.keyOf (s : State) (x : Reg) : Option Bool :=
  if h : (s.v x).toNat < 16 then some (s.key ⟨(s.v x).toNat, h⟩) else none

/-- The lowest key that is held, in the ascending scan of FX0A (R204). -/
def State.lowestKey (s : State) : Option (Fin 16) := (List.finRange 16).find? fun k => s.key k

/-- A byte that holds a key's index. -/
def keyByte (k : Fin 16) : Byte := BitVec.ofNat 8 k.val

/-- `RandByte()` (R15, R44): the random byte input of this CXNN, a free value. -/
def State.randByte (s : State) : Byte := Config.randByte s.randDraws

/-- One random byte is consumed (R44). -/
def State.drawn (s : State) : State := { s with randDraws := s.randDraws + 1 }

end Sys2Proof.Machine
end

