-- ==== Sys2Proof/Machine/Flags.lean ====
section
/-! DEFINITION. The flag computations of spec/10_state.md R42 and spec/41_alu.md, and the write of VF. -/

namespace Sys2Proof.Machine

/-- A flag as VF holds it: 1 or 0. -/
def flagByte (b : Bool) : Byte := if b then 1 else 0

/-- `VF <- b`: the whole register is overwritten (R21). -/
def State.setFlag (s : State) (b : Bool) : State := s.setV vf (flagByte b)

/-- The exact sum of two registers, 0..510 (R137). -/
def exactSum (a b : Byte) : Nat := a.toNat + b.toNat

/-- Carry of 8XY4: the exact sum exceeds 255 (R137). -/
def carryOut (a b : Byte) : Bool := decide (255 < exactSum a b)

/-- "No borrow" of `a − b`: a is strictly greater (R138, R140). -/
def noBorrow (a b : Byte) : Bool := decide (b.toNat < a.toNat)

/-- The bit a right shift drops: bit 0 (R139). -/
def shiftedOutLow (a : Byte) : Bool := a.getLsbD 0

/-- The bit a left shift drops: bit 7 (R141). -/
def shiftedOutHigh (a : Byte) : Bool := a.getLsbD 7

end Sys2Proof.Machine
end

