-- ==== Sys2Proof/Machine/Alu.lean ====
section
/-! DEFINITION. Register loads and ALU: spec/41_alu.md R130 to R143. The statements of a handler run in the order
written, each reading the registers as the earlier ones left them (R130), which decides VF when X or Y is 0xF. -/

namespace Sys2Proof.Machine

/-- 6XNN `LD Vx, byte` (R131). -/
def execLdImm (x : Reg) (nn : Byte) (s : State) : Result := .next (s.setV x nn)

/-- 7XNN `ADD Vx, byte` (R132): wraps modulo 256, no flag. -/
def execAddImm (x : Reg) (nn : Byte) (s : State) : Result :=
  .next (s.setV x (BitVec.ofNat 8 (exactSum (s.v x) nn)))

/-- 8XY0 `LD Vx, Vy` (R133). -/
def execLdReg (x y : Reg) (s : State) : Result := .next (s.setV x (s.v y))

/-- 8XY1 `OR Vx, Vy` (R134). -/
def execOrReg (x y : Reg) (s : State) : Result := .next (s.setV x (s.v x ||| s.v y))

/-- 8XY2 `AND Vx, Vy` (R135). -/
def execAndReg (x y : Reg) (s : State) : Result := .next (s.setV x (s.v x &&& s.v y))

/-- 8XY3 `XOR Vx, Vy` (R136). -/
def execXorReg (x y : Reg) (s : State) : Result := .next (s.setV x (s.v x ^^^ s.v y))

/-- 8XY4 `ADD Vx, Vy` (R137): the sum is taken before the flag is written. -/
def execAddReg (x y : Reg) (s : State) : Result :=
  let sum := exactSum (s.v x) (s.v y)
  let s1 := s.setFlag (carryOut (s.v x) (s.v y))
  .next (s1.setV x (BitVec.ofNat 8 sum))

/-- 8XY5 `SUB Vx, Vy` (R138): the difference reads the registers after the flag write. -/
def execSubReg (x y : Reg) (s : State) : Result :=
  let s1 := s.setFlag (noBorrow (s.v x) (s.v y))
  .next (s1.setV x (s1.v x - s1.v y))

/-- 8XY6 `SHR Vx` (R139): the shift reads the register after the flag write. -/
def execShr (x : Reg) (s : State) : Result :=
  let s1 := s.setFlag (shiftedOutLow (s.v x))
  .next (s1.setV x (s1.v x >>> 1))

/-- 8XY7 `SUBN Vx, Vy` (R140): the difference reads the registers after the flag write. -/
def execSubnReg (x y : Reg) (s : State) : Result :=
  let s1 := s.setFlag (noBorrow (s.v y) (s.v x))
  .next (s1.setV x (s1.v y - s1.v x))

/-- 8XYE `SHL Vx` (R141): the shift reads the register after the flag write. -/
def execShl (x : Reg) (s : State) : Result :=
  let s1 := s.setFlag (shiftedOutHigh (s.v x))
  .next (s1.setV x (s1.v x <<< 1))

/-- CXNN with the random byte given (R142): `V[X] <- r & NN`. -/
def rndWith (r : Byte) (x : Reg) (nn : Byte) (s : State) : State := s.setV x (r &&& nn)

/-- CXNN `RND Vx, byte` (R142): one random byte is consumed (R44). -/
def execRnd (x : Reg) (nn : Byte) (s : State) : Result := .next (rndWith s.randByte x nn s.drawn)

end Sys2Proof.Machine
end

