-- ==== Sys2Proof/Machine/Display.lean ====
section
/-! DEFINITION. The display instructions and the sprite-blit collision engine: spec/43_display.md R180 to R188. -/

namespace Sys2Proof.Machine

/-- What the blit loop carries: the framebuffer and whether a collision has been seen (R186). -/
abbrev Blit := Framebuffer × Bool

/-- The sprite bit of column `col`, most significant bit first: `(sprite >> (7 − col)) & 1` (R185). -/
def spriteBit (sprite : Byte) (col : Nat) : Bool := sprite.getLsbD (7 - col)

/-- Visit one pixel: outside the framebuffer it is skipped; inside, a pixel that is on is a collision, and the pixel
is XORed with 1 (R185, R186). -/
def blitPixel (p : Params) (px py : Nat) (b : Blit) : Blit :=
  if px < p.fbW ∧ py < p.fbH then
    (Framebuffer.toggle (pixelIndex p.fbW px py) b.1, b.2 || b.1.contains (pixelIndex p.fbW px py))
  else b

/-- The 8 columns of one sprite row (R185). -/
def blitRow (p : Params) (x0 py : Nat) (sprite : Byte) (b : Blit) : Blit :=
  (List.range 8).foldl (fun b col => if spriteBit sprite col then blitPixel p (x0 + col) py b else b) b

/-- The rows of a sprite, from row `py` down (R185). -/
def blitRows (p : Params) (x0 : Nat) : Nat → List Byte → Blit → Blit
  | _, [], b => b
  | py, sprite :: rows, b => blitRows p x0 (py + 1) rows (blitRow p x0 py sprite b)

/-- The sprite drawn on the framebuffer, with the collision flag reset before the loop (R186). -/
def State.blit (s : State) (x0 y0 : Nat) (rows : List Byte) : Blit := blitRows s.params x0 y0 rows (s.fb, false)

/-- 00E0 `CLS` (R181). -/
def execCls (s : State) : Result := .next (s.setFb [])

/-- DXYN `DRW Vx, Vy, nibble` (R182): the range check, then the origin, then the blit; VF ends as the collision. -/
def execDrw (x y : Reg) (n : Nibble) (s : State) : Result :=
  if s.spriteInRange n then
    let b := s.blit (s.originX x) (s.originY y) (s.bytes (s.effAddr 0) n.toNat)
    .next ((s.setFb b.1).setFlag b.2)
  else .next (s.raise .memOutOfRange)

end Sys2Proof.Machine
end

