-- ==== Sys2Proof/Machine/Flow.lean ====
section
/-! DEFINITION. Control transfer: spec/40_flow.md R110 to R118. PC is the fetch address plus 2 on entry (R26). -/

namespace Sys2Proof.Machine

/-- 00EE `RET` (R111). -/
def execRet (s : State) : Result :=
  if h : 0 < s.sp.val then .next (s.drop.setPc (s.top h)) else .next (s.raise .stackUnderflow)

/-- 1NNN `JP addr` (R112). -/
def execJp (nnn : Addr) (s : State) : Result := .next (s.setPc (addrWord nnn))

/-- 2NNN `CALL addr` (R113). -/
def execCall (nnn : Addr) (s : State) : Result :=
  if h : s.sp.val < 16 then .next ((s.push s.pc h).setPc (addrWord nnn)) else .next (s.raise .stackOverflow)

/-- 3XNN `SE Vx, byte` (R114). -/
def execSeImm (x : Reg) (nn : Byte) (s : State) : Result := .next (s.skipIf (s.v x == nn))

/-- 4XNN `SNE Vx, byte` (R115). -/
def execSneImm (x : Reg) (nn : Byte) (s : State) : Result := .next (s.skipIf (s.v x != nn))

/-- 5XY0 `SE Vx, Vy` (R116). -/
def execSeReg (x y : Reg) (s : State) : Result := .next (s.skipIf (s.v x == s.v y))

/-- 9XY0 `SNE Vx, Vy` (R117). -/
def execSneReg (x y : Reg) (s : State) : Result := .next (s.skipIf (s.v x != s.v y))

/-- BNNN `JP V0, addr` (R118): the offset register is always V0. -/
def execJpV0 (nnn : Addr) (s : State) : Result := .next (s.setPc (addrWord nnn + regWord (s.v 0)))

end Sys2Proof.Machine
end

