-- ==== Sys2Proof/Machine/IndexMemory.lean ====
section
/-! DEFINITION. The index register and memory-block instructions: spec/42_index_memory.md R160 to R166. Each checks its
whole range before its first access (R64), and none but ANNN, FX1E and FX29 writes I (R160). -/

namespace Sys2Proof.Machine

/-- ANNN `LD I, addr` (R161). -/
def execLdI (nnn : Addr) (s : State) : Result := .next (s.setI (addrWord nnn))

/-- FX1E `ADD I, Vx` (R162): wraps modulo 2^16, no flag, no fault. -/
def execAddI (x : Reg) (s : State) : Result := .next (s.setI (s.i + regWord (s.v x)))

/-- FX29 `LD F, Vx` (R163). -/
def execLdF (x : Reg) (s : State) : Result := .next (s.setI (glyphAddr (s.v x)))

/-- FX33 `LD B, Vx` (R164). -/
def execLdB (x : Reg) (s : State) : Result :=
  if s.reaches 2 then .next (s.setBytes (s.effAddr 0) (bcdDigits (s.v x))) else .next (s.raise .memOutOfRange)

/-- FX55 `LD [I], Vx` (R165). -/
def execStoreRegs (x : Reg) (s : State) : Result :=
  if s.reaches x.val then .next (s.setBytes (s.effAddr 0) (s.regsUpTo x)) else .next (s.raise .memOutOfRange)

/-- FX65 `LD Vx, [I]` (R166). -/
def execLoadRegs (x : Reg) (s : State) : Result :=
  if s.reaches x.val then .next (s.loadV x (s.effAddr 0)) else .next (s.raise .memOutOfRange)

end Sys2Proof.Machine
end

