-- ==== Sys2Proof/Machine/KeysTimers.lean ====
section
/-! DEFINITION. The keypad and timer instructions: spec/44_keys_timers.md R200 to R206. -/

namespace Sys2Proof.Machine

/-- EX9E `SKP Vx` (R201). -/
def execSkp (x : Reg) (s : State) : Result :=
  match s.keyOf x with
  | some held => .next (s.skipIf held)
  | none => .next (s.raise .keyOutOfRange)

/-- EXA1 `SKNP Vx` (R202). -/
def execSknp (x : Reg) (s : State) : Result :=
  match s.keyOf x with
  | some held => .next (s.skipIf (!held))
  | none => .next (s.raise .keyOutOfRange)

/-- FX07 `LD Vx, DT` (R203). -/
def execLdVxDt (x : Reg) (s : State) : Result := .next (s.setV x s.dt)

/-- FX0A `LD Vx, K` (R204): with no key held, PC goes back to this instruction. -/
def execLdVxK (x : Reg) (s : State) : Result :=
  match s.lowestKey with
  | some k => .next (s.setV x (keyByte k))
  | none => .next (s.setPc (s.pc - 2))

/-- FX15 `LD DT, Vx` (R205). -/
def execLdDtVx (x : Reg) (s : State) : Result := .next (s.setDt (s.v x))

/-- FX18 `LD ST, Vx` (R206). -/
def execLdStVx (x : Reg) (s : State) : Result := .next (s.setSt (s.v x))

end Sys2Proof.Machine
end

