-- ==== Sys2Proof/Machine/Step.lean ====
section
/-! DEFINITION. One STEP (spec/30_encoding.md R80): one cycle, Fetch, Execute, Tick, as one transition. -/

namespace Sys2Proof.Machine

/-- Execute (R84): the decoder selects a handler from IR; a word that selects none is a no-op (R92). -/
def executeIr (s : State) : Host.Outcome State Fault Refusal :=
  match decodeWord s.ir with
  | .ok i => exec i s
  | .error _ => execUndefined s

/-- STEP (R80): a faulted machine does nothing (R81); a PC above 0xFFE faults (R82); else Fetch, Execute, Tick. -/
def step (s : State) : Host.Outcome State Fault Refusal :=
  if s.faultCode = .none then
    if s.canFetch then finishCycle (executeIr s.fetch) else .next s.fetchFault
  else .next s

/-- The state with the instruction of bits `w` (numbered as spec/opcode_table.json numbers them) stored where the next
Fetch reads it; a faulted or unfetchable machine is made ready to fetch first (notes/assumptions/8.md). -/
def State.withFetchWord (s : State) (nbits w : Nat) : State :=
  s.readyToFetch.placeWord (BitVec.ofNat 16 (w % 2 ^ nbits))

end Sys2Proof.Machine
end

