-- ==== Sys2Proof/Machine/Ports.lean ====
section
/-! DEFINITION. The ports of the block (spec/10_state.md R45): the host's transactions between cycles and the outputs
it reads. STEP is `step`; RAND_IN is the free value `Config.randByte`. -/

namespace Sys2Proof.Machine

/-- RESET (spec/70_reset_and_hazards.md R260): all state is rebuilt. The parameters are the machine's own, and the count
of random bytes goes on, so that the draws after a RESET are new ones (R44; notes/assumptions/3.md). -/
def hostReset (s : State) : State := { State.resetWith s.params with randDraws := s.randDraws }

/-- LOAD (R266): nothing while faulted; more than 3584 bytes is LOAD_TOO_LARGE, which leaves FAULT_PC (R227); else the
bytes are copied to 0x200 on. -/
def hostLoad (bs : List Byte) (s : State) : State :=
  if s.faultCode = .none then
    if Config.maxRom < bs.length then { s with faultCode := .loadTooLarge } else s.setBytes Config.progStart bs
  else s

/-- KEY_IN[15:0] (R45, R267): bit k is key k. DESIGN CHOICE, unsafe (notes/assumptions/21.md): KEYS is written while a
fault is recorded too. R45 and R267 name no fault and D11 freezes STEP and LOAD alone, but R81 says that the machine
stays as the fault left it until RESET. -/
def hostKeyIn (k : BitVec 16) (s : State) : State := { s with keys := Vector.ofFn fun j : Fin 16 => k.getLsbD j.val }

/-- TONE (spec/60_exceptions.md R242): 1 exactly while ST ≠ 0. -/
def tone (s : State) : Bool := s.st != 0

/-- FB_OUT (R45): the FB_W × FB_H pixels in row-major order (R180). -/
def fbOut (s : State) : List Bool :=
  (List.range (s.params.fbW * s.params.fbH)).map fun p => s.fb.contains p

/-- FAULT_OUT (R45): FAULT_CODE in 3 bits and FAULT_PC in 16. -/
def faultOut (s : State) : BitVec 3 × Word := (faultBits s.faultCode, s.faultPc)

/-- What the host can do to the machine (R45). -/
inductive Transaction where
  | reset
  | load (bytes : List Byte)
  | keyIn (keys : BitVec 16)
  | step
  deriving DecidableEq, Repr

/-- One transaction of the host. -/
def transact (t : Transaction) (s : State) : Result :=
  match t with
  | .reset => .next (hostReset s)
  | .load bytes => .next (hostLoad bytes s)
  | .keyIn keys => .next (hostKeyIn keys s)
  | .step => Sys2Proof.Machine.step s

end Sys2Proof.Machine
end

