-- ==== Sys2Proof/Safety.lean ====
section
/-! DEFINITION. What counts as a safe state, and the words in which statements say what an instruction leaves
unchanged. -/

namespace Sys2Proof.Machine

/-- The invariant of the CORE: memory and framebuffer keep their canonical form inside their spaces (spec/10_state.md
R34, R37, R47), PC never exceeds 0x10FE and no stack entry exceeds 0x1000, so PC never wraps (R27), and the
framebuffer's sizes are positive (spec/00_scope.md R8). -/
def State.Inv (s : State) : Prop :=
  Memory.wf s.params.font s.mem ∧
  Framebuffer.wf s.params.fbW s.params.fbH s.fb ∧
  s.pc.toNat ≤ 0x10FE ∧
  (∀ k : Fin 16, s.stack[k.val].toNat ≤ 0x1000) ∧
  0 < s.params.fbW ∧ 0 < s.params.fbH

/-- Every byte of memory reads as before. -/
def SameMemory (s t : State) : Prop := ∀ a, t.byte a = s.byte a

/-- Only general registers may differ. -/
def OnlyRegs (s t : State) : Prop := t = { s with regs := t.regs } ∧ SameMemory s t

/-- Only PC may differ. -/
def OnlyPc (s t : State) : Prop := t = { s with pc := t.pc } ∧ SameMemory s t

/-- Only I may differ. -/
def OnlyI (s t : State) : Prop := t = { s with i := t.i } ∧ SameMemory s t

/-- Only PC, SP and the call stack may differ. -/
def OnlyPcStack (s t : State) : Prop := t = { s with pc := t.pc, sp := t.sp, stack := t.stack } ∧ SameMemory s t

/-- Only memory may differ, and of it only the `n` bytes from `a` on. -/
def OnlyBytes (a n : Nat) (s t : State) : Prop :=
  t = { s with mem := t.mem } ∧ ∀ b, (b < a ∨ a + n ≤ b) → t.byte b = s.byte b

/-- Only general registers and the framebuffer may differ. -/
def OnlyRegsFb (s t : State) : Prop := t = { s with regs := t.regs, fb := t.fb } ∧ SameMemory s t

/-- Every general register but those that `P` names is as before. -/
def OtherRegsKept (P : Reg → Prop) (s t : State) : Prop := ∀ r, ¬ P r → t.v r = s.v r

/-- Only FAULT_CODE and FAULT_PC may differ: what the spec's model leaves after a fault (spec/60_exceptions.md R226). -/
def OnlyFaultRecord (s t : State) : Prop :=
  t = { s with faultCode := t.faultCode, faultPc := t.faultPc } ∧ SameMemory s t

/-- The next cycle of `s` runs the handler of `i`: no fault is recorded, PC can be fetched, and the word at PC, its byte
at PC the high one, decodes to `i` (spec/30_encoding.md R80 to R84). -/
def Executes (s : State) (i : Instr) : Prop :=
  s.faultCode = .none ∧ s.pc.toNat ≤ 0xFFE ∧
    decodeWord (wordOfBytes (s.byte s.pc.toNat) (s.byte (s.pc.toNat + 1))) = .ok i

/-- The general registers an instruction may write: the table of spec/10_state.md R22, with VF (15) for the flag
handlers. -/
def mayWrite : Instr → Reg → Bool
  | .cls, _ => false
  | .ret, _ => false
  | .jp _, _ => false
  | .call _, _ => false
  | .seImm _ _, _ => false
  | .sneImm _ _, _ => false
  | .seReg _ _, _ => false
  | .ldImm x _, r => r == x
  | .addImm x _, r => r == x
  | .ldReg x _, r => r == x
  | .orReg x _, r => r == x
  | .andReg x _, r => r == x
  | .xorReg x _, r => r == x
  | .addReg x _, r => r == x || r == 15
  | .subReg x _, r => r == x || r == 15
  | .shr x, r => r == x || r == 15
  | .subnReg x _, r => r == x || r == 15
  | .shl x, r => r == x || r == 15
  | .sneReg _ _, _ => false
  | .ldI _, _ => false
  | .jpV0 _, _ => false
  | .rnd x _, r => r == x
  | .drw _ _ _, r => r == 15
  | .skp _, _ => false
  | .sknp _, _ => false
  | .ldVxDt x, r => r == x
  | .ldVxK x, r => r == x
  | .ldDtVx _, _ => false
  | .ldStVx _, _ => false
  | .addI _, _ => false
  | .ldF _, _ => false
  | .ldB _, _ => false
  | .storeRegs _, _ => false
  | .loadRegs x, r => decide (r.val ≤ x.val)

/-- The sprite whose rows are `rows`, drawn from origin (x0, y0), has a set bit at pixel (x, y): bit 7 of row r is pixel
(x0, y0 + r) and bit 0 is pixel (x0 + 7, y0 + r) (spec/43_display.md R185). -/
def spriteCovers (x0 y0 : Nat) (rows : List Byte) (x y : Nat) : Bool :=
  decide (x0 ≤ x ∧ x < x0 + 8 ∧ y0 ≤ y ∧ y < y0 + rows.length) && (rows.getD (y - y0) 0).getLsbD (7 - (x - x0))

/-- The N sprite bytes that DXYN reads from I on (spec/43_display.md R183). -/
def spriteRows (s : State) (n : Nibble) : List Byte := (List.range n.toNat).map fun k => s.byte (s.i.toNat + k)

/-- The sprite of `DXYN` has a set bit at pixel (px, py), the origin being V[X] mod FB_W, V[Y] mod FB_H (R184). -/
def Drawn (s : State) (x y : Reg) (n : Nibble) (px py : Nat) : Bool :=
  spriteCovers ((s.v x).toNat % s.params.fbW) ((s.v y).toNat % s.params.fbH) (spriteRows s n) px py

end Sys2Proof.Machine
end

