-- ==== Sys2Proof/Certificates/Slice0/Obligations.lean ====
section
/-! DEFINITION. The statements about the CORE, one `def Obligations.<Name> : Prop` each. Every docstring names the rule
or the section of spec/ it formalises. The vocabulary (`Executes`, `OnlyRegs`, `Drawn`, …) is that of Safety.lean. -/

open Sys2Proof Sys2Proof.Machine

/-! ## Encoding and decoding (spec/30_encoding.md) -/

/-- Decode and encode agree: the bytes of every instruction decode to it, with every operand at every value its field
admits, and the decoder takes exactly its two bytes (30_encoding.md sections 2, 3 and 6). -/
def Obligations.DecodeOfEncodeIsIdentity : Prop :=
  ∀ (i : Instr) (rest : List Byte), decodeWord (encode i) = .ok i ∧ decode (encodeBytes i ++ rest) = .ok (i, rest)

/-- A word selects an instruction exactly where it agrees with the canonical word on the bits that the dispatch
examines or the handler reads; the other bits are free (30_encoding.md R88, R91: decision D3). -/
def Obligations.WordsOfAnInstructionAgreeOnUsedBits : Prop :=
  ∀ (w : Word) (i : Instr), decodeWord w = .ok i ↔ w &&& usedBits i = encode i &&& usedBits i

/-- The words that select no handler are those of the table of R93 (an inference the spec marks as derived). -/
def Obligations.UndefinedWordsAreTheUnlistedKeys : Prop :=
  ∀ w : Word, (∃ r, decodeWord w = .error r) ↔
    (fieldFamily w = 0x0 ∧ fieldN w ∉ [0x0, 0xE]) ∨
    (fieldFamily w = 0x8 ∧ fieldN w ∉ [0x0, 0x1, 0x2, 0x3, 0x4, 0x5, 0x6, 0x7, 0xE]) ∨
    (fieldFamily w = 0xE ∧ fieldN w ∉ [0x1, 0xE]) ∨
    (fieldFamily w = 0xF ∧ fieldNN w ∉ [0x07, 0x0A, 0x15, 0x18, 0x1E, 0x29, 0x33, 0x55, 0x65])

/-- Words written out from the spec's own examples and vectors decode to the instructions they stand for. -/
def Obligations.ExampleWordsDecode : Prop :=
  decodeWord 0x1ABC = .ok (.jp 0xABC) ∧ decodeWord 0x3342 = .ok (.seImm 3 0x42) ∧
  decodeWord 0x6A2F = .ok (.ldImm 10 0x2F) ∧ decodeWord 0x8124 = .ok (.addReg 1 2) ∧
  decodeWord 0x810E = .ok (.shl 1) ∧ decodeWord 0xA2F0 = .ok (.ldI 0x2F0) ∧
  decodeWord 0xC30F = .ok (.rnd 3 0x0F) ∧ decodeWord 0xD015 = .ok (.drw 0 1 5) ∧
  decodeWord 0xE1AE = .ok (.skp 1) ∧ decodeWord 0xF20A = .ok (.ldVxK 2) ∧
  decodeWord 0xF255 = .ok (.storeRegs 2) ∧ decode [0x00, 0xEE] = .ok (.ret, [])

/-! ## The cycle (spec/30_encoding.md section 1, spec/60_exceptions.md) -/

/-- A STEP runs the decoded instruction: where the two bytes at PC decode to `i`, `step` is `exec i` on the state whose
IR is the word and whose PC has moved past it, followed by the Tick unless the handler faulted. -/
def Obligations.StepRunsTheDecodedInstruction : Prop :=
  ∀ (s : State) (i : Instr), s.faultCode = .none → s.pc.toNat ≤ 0xFFE → wellFormed i = true →
    decode [s.byte s.pc.toNat, s.byte (s.pc.toNat + 1)] = .ok (i, []) →
    step s = match exec i { s with ir := wordOfBytes (s.byte s.pc.toNat) (s.byte (s.pc.toNat + 1)), pc := s.pc + 2 } with
      | .next t => .next (if t.faultCode = .none then t.tick else t)
      | .fault f => .fault f
      | .refused r => .refused r

/-- R92: an undefined word executes as a no-op: Fetch, nothing in Execute, the Tick, no fault. -/
def Obligations.UndefinedWordIsATickedNoop : Prop :=
  ∀ (s : State) (w : Word) (r : Reject), s.faultCode = .none → s.pc.toNat ≤ 0xFFE →
    w = wordOfBytes (s.byte s.pc.toNat) (s.byte (s.pc.toNat + 1)) → decodeWord w = .error r →
    ∃ t, step s = .next t ∧ t.ir = w ∧ t.pc = s.pc + 2 ∧ t.dt.toNat = s.dt.toNat - 1 ∧ t.st.toNat = s.st.toNat - 1 ∧
      t = { s with ir := t.ir, pc := t.pc, dt := t.dt, st := t.st } ∧ SameMemory s t

/-- After a STEP that fetched, IR holds the byte at the old PC as its high byte and the next byte as its low byte,
whatever was executed (30_encoding.md R83, 20_memory.md R61; only Fetch writes IR, 10_state.md R33). -/
def Obligations.IrHoldsTheFetchedWordBigEndian : Prop :=
  ∀ s t : State, s.faultCode = .none → s.pc.toNat ≤ 0xFFE → step s = .next t →
    t.ir.extractLsb' 8 8 = s.byte s.pc.toNat ∧ t.ir.extractLsb' 0 8 = s.byte (s.pc.toNat + 1)

/-- R240: a cycle that did not fault ends with the Tick: each timer loses 1 while above 0 and stays at 0, and nothing
else changes after the handler. -/
def Obligations.CycleEndsWithTheTick : Prop :=
  ∀ (s u : State) (i : Instr), Executes s i →
    exec i { s with ir := wordOfBytes (s.byte s.pc.toNat) (s.byte (s.pc.toNat + 1)), pc := s.pc + 2 } = .next u →
    u.faultCode = .none →
    ∃ t, step s = .next t ∧ t.dt.toNat = u.dt.toNat - 1 ∧ t.st.toNat = u.st.toNat - 1 ∧
      t = { u with dt := t.dt, st := t.st }

/-- While a fault is recorded, STEP and LOAD change nothing (30_encoding.md section 1, decision D11). -/
def Obligations.FaultedMachineIsStuck : Prop :=
  ∀ s : State, s.faultCode ≠ .none → step s = .next s ∧ ∀ bs, hostLoad bs s = s

/-- A PC above 0xFFE faults at Fetch with FAULT_PC = PC; nothing else changes: PC and IR stay, no Tick (decision D5; what
the spec's model leaves beyond FAULT_CODE, assumption log entry 1). -/
def Obligations.UnfetchablePcFaults : Prop :=
  ∀ s : State, s.faultCode = .none → 0xFFE < s.pc.toNat →
    ∃ t, step s = .next t ∧ t.faultCode = .fetchOutOfRange ∧ t.faultPc = s.pc ∧ OnlyFaultRecord s t

/-- Every STEP answers a next state: no encoding traps as illegal and none is refused (30_encoding.md section 7), and
every handler answers a next state from every state. -/
def Obligations.EveryStepAnswersANextState : Prop :=
  (∀ s : State, ∃ t, step s = .next t) ∧ ∀ (i : Instr) (s : State), ∃ t, exec i s = .next t

/-! ## Reset and the invariant -/

/-- The state after RESET, for all parameters (10_state.md section 14; the values of FB, IR and the fault record are
the spec's decision D17), and the default parameters 64 × 32 (decision D1). -/
def Obligations.ResetValues : Prop :=
  (∀ p : Params, let s := State.resetWith p
    (∀ r, s.v r = 0) ∧ s.i = 0 ∧ s.pc = 0x200 ∧ s.sp = 0 ∧ (∀ k : Fin 16, s.stack[k.val] = 0) ∧ s.dt = 0 ∧ s.st = 0 ∧
    (∀ k, s.key k = false) ∧ (∀ k : Fin 80, s.byte (0x050 + k.val) = p.font[k.val]) ∧
    (∀ a, a < 0x050 ∨ (0x0A0 ≤ a ∧ a < 4096) → s.byte a = 0) ∧ (∀ x y, s.pixel x y = false) ∧ s.ir = 0 ∧
    s.faultCode = .none ∧ s.faultPc = 0 ∧ s.params = p) ∧
  State.reset = State.resetWith State.reset.params ∧ State.reset.params.fbW = 64 ∧ State.reset.params.fbH = 32

/-- The invariant holds after RESET, for all positive framebuffer sizes. -/
def Obligations.InvariantHoldsAtReset : Prop :=
  State.reset.Inv ∧ ∀ p : Params, 0 < p.fbW → 0 < p.fbH → (State.resetWith p).Inv

/-- Every STEP keeps the invariant: memory and framebuffer stay canonical and inside their spaces, PC never exceeds
0x10FE and no stack entry exceeds 0x1000, so PC never wraps (10_state.md section 3, R27: derived by the spec). -/
def Obligations.StepKeepsTheInvariant : Prop :=
  ∀ s t : State, s.Inv → step s = .next t → t.Inv

/-- The host's RESET, LOAD and KEY_IN keep the invariant too. -/
def Obligations.HostOperationsKeepTheInvariant : Prop :=
  ∀ s : State, s.Inv → (hostReset s).Inv ∧ (∀ bs, (hostLoad bs s).Inv) ∧ ∀ k, (hostKeyIn k s).Inv

/-- Canonical memories that read alike are equal lists (the model's representation, assumption log entry 5). -/
def Obligations.CanonicalMemoriesThatReadAlikeAreEqual : Prop :=
  ∀ (font : Vector Byte 80) (m m' : Memory), Memory.wf font m → Memory.wf font m' →
    (∀ a, Memory.read font m a = Memory.read font m' a) → m = m'

/-! ## Control transfer (spec/40_flow.md) -/

/-- R111 `RET`: SP − 1, PC from the entry, which is not cleared; at SP = 0 STACK_UNDERFLOW. -/
def Obligations.ReturnPopsTheTopEntry : Prop :=
  (∀ (s : State) (k : Fin 16), s.sp.val = k.val + 1 →
    ∃ t, exec .ret s = .next t ∧ t.sp.val = k.val ∧ t.pc = s.stack[k.val] ∧ t.stack = s.stack ∧ OnlyPcStack s t) ∧
  (∀ s : State, s.sp.val = 0 → ∃ t, exec .ret s = .next t ∧ t.faultCode = .stackUnderflow) ∧
  ∀ w, fieldFamily w = 0x0 → fieldN w = 0xE → decodeWord w = .ok .ret

/-- R112 `JP addr`: after the handler, and after the whole cycle, PC is the 12-bit address. -/
def Obligations.JumpSetsPc : Prop :=
  (∀ (nnn : Addr) (s : State), ∃ t, exec (.jp nnn) s = .next t ∧ t.pc.toNat = nnn.toNat ∧ OnlyPc s t) ∧
  (∀ (nnn : Addr) (s : State), Executes s (.jp nnn) → ∃ t, step s = .next t ∧ t.pc.toNat = nnn.toNat) ∧
  ∀ w, fieldFamily w = 0x1 → decodeWord w = .ok (.jp (fieldNNN w))

/-- R113 `CALL addr`: the address after the call is pushed, PC = NNN; at SP = 16 STACK_OVERFLOW, nothing pushed. -/
def Obligations.CallPushesTheReturnAddress : Prop :=
  (∀ (nnn : Addr) (s : State) (k : Fin 16), s.sp.val = k.val →
    ∃ t, exec (.call nnn) s = .next t ∧ t.stack[k.val] = s.pc ∧ t.sp.val = k.val + 1 ∧ t.pc.toNat = nnn.toNat ∧
      (∀ j : Fin 16, j ≠ k → t.stack[j.val] = s.stack[j.val]) ∧ OnlyPcStack s t) ∧
  (∀ (nnn : Addr) (s : State), s.sp.val = 16 →
    ∃ t, exec (.call nnn) s = .next t ∧ t.faultCode = .stackOverflow ∧ t.sp = s.sp ∧ t.stack = s.stack) ∧
  ∀ w, fieldFamily w = 0x2 → decodeWord w = .ok (.call (fieldNNN w))

/-- R114, R115: the skips that compare a register with an immediate. -/
def Obligations.SkipsCompareWithImmediate : Prop :=
  (∀ (x : Reg) (nn : Byte) (s : State),
    (∃ t, exec (.seImm x nn) s = .next t ∧ t.pc = (if s.v x = nn then s.pc + 2 else s.pc) ∧ OnlyPc s t) ∧
    (∃ t, exec (.sneImm x nn) s = .next t ∧ t.pc = (if s.v x ≠ nn then s.pc + 2 else s.pc) ∧ OnlyPc s t)) ∧
  ∀ w, (fieldFamily w = 0x3 → decodeWord w = .ok (.seImm (fieldX w) (fieldNN w))) ∧
    (fieldFamily w = 0x4 → decodeWord w = .ok (.sneImm (fieldX w) (fieldNN w)))

/-- R116, R117: the skips that compare two registers; IR[3:0] is not examined. -/
def Obligations.SkipsCompareRegisters : Prop :=
  (∀ (x y : Reg) (s : State),
    (∃ t, exec (.seReg x y) s = .next t ∧ t.pc = (if s.v x = s.v y then s.pc + 2 else s.pc) ∧ OnlyPc s t) ∧
    (∃ t, exec (.sneReg x y) s = .next t ∧ t.pc = (if s.v x ≠ s.v y then s.pc + 2 else s.pc) ∧ OnlyPc s t)) ∧
  ∀ w, (fieldFamily w = 0x5 → decodeWord w = .ok (.seReg (fieldX w) (fieldY w))) ∧
    (fieldFamily w = 0x9 → decodeWord w = .ok (.sneReg (fieldX w) (fieldY w)))

/-- `JP V0, addr`: PC is the exact sum NNN + V0, never masked to 12 bits (40_flow.md section 2). -/
def Obligations.JumpWithOffsetAddsV0 : Prop :=
  ∀ (nnn : Addr) (s : State),
    ∃ t, exec (.jpV0 nnn) s = .next t ∧ t.pc.toNat = nnn.toNat + (s.v 0).toNat ∧ OnlyPc s t

/-- A return after a call comes back to the instruction after the call, with SP as before, from any state that the
subroutine leaves with the call's SP and stack (40_flow.md sections 1 and 2). -/
def Obligations.ReturnAfterCallComesBack : Prop :=
  ∀ (nnn : Addr) (s : State), s.sp.val < 16 →
    ∃ t, exec (.call nnn) s = .next t ∧ ∀ u : State, u.sp = t.sp → u.stack = t.stack →
      ∃ v, exec .ret u = .next v ∧ v.pc = s.pc ∧ v.sp = s.sp

/-! ## Register loads and ALU (spec/41_alu.md) -/

/-- R131, R133: register loads; VF changes only as the destination. -/
def Obligations.RegisterLoads : Prop :=
  (∀ (x : Reg) (nn : Byte) (s : State),
    ∃ t, exec (.ldImm x nn) s = .next t ∧ t.v x = nn ∧ OtherRegsKept (· = x) s t ∧ OnlyRegs s t) ∧
  (∀ (x y : Reg) (s : State),
    ∃ t, exec (.ldReg x y) s = .next t ∧ t.v x = s.v y ∧ OtherRegsKept (· = x) s t ∧ OnlyRegs s t) ∧
  ∀ w, (fieldFamily w = 0x6 → decodeWord w = .ok (.ldImm (fieldX w) (fieldNN w))) ∧
    (fieldFamily w = 0x8 → fieldN w = 0x0 → decodeWord w = .ok (.ldReg (fieldX w) (fieldY w)))

/-- R132: add immediate wraps modulo 256 and leaves VF alone unless X = 0xF. -/
def Obligations.AddImmediateWraps : Prop :=
  (∀ (x : Reg) (nn : Byte) (s : State),
    ∃ t, exec (.addImm x nn) s = .next t ∧ (t.v x).toNat = ((s.v x).toNat + nn.toNat) % 256 ∧
      OtherRegsKept (· = x) s t ∧ OnlyRegs s t) ∧
  ∀ w, fieldFamily w = 0x7 → decodeWord w = .ok (.addImm (fieldX w) (fieldNN w))

/-- R134, R135, R136: OR, AND, XOR; VF is untouched unless X = 0xF. -/
def Obligations.BitwiseOperations : Prop :=
  (∀ (x y : Reg) (s : State),
    (∃ t, exec (.orReg x y) s = .next t ∧ t.v x = s.v x ||| s.v y ∧ OtherRegsKept (· = x) s t ∧ OnlyRegs s t) ∧
    (∃ t, exec (.andReg x y) s = .next t ∧ t.v x = s.v x &&& s.v y ∧ OtherRegsKept (· = x) s t ∧ OnlyRegs s t) ∧
    (∃ t, exec (.xorReg x y) s = .next t ∧ t.v x = s.v x ^^^ s.v y ∧ OtherRegsKept (· = x) s t ∧ OnlyRegs s t)) ∧
  ∀ w, fieldFamily w = 0x8 →
    (fieldN w = 0x1 → decodeWord w = .ok (.orReg (fieldX w) (fieldY w))) ∧
    (fieldN w = 0x2 → decodeWord w = .ok (.andReg (fieldX w) (fieldY w))) ∧
    (fieldN w = 0x3 → decodeWord w = .ok (.xorReg (fieldX w) (fieldY w)))

/-- `8XY4`: V[X] is the sum modulo 256 for every X and Y; VF is the carry unless X = 0xF, where the result overwrites
it (41_alu.md section 2; the order is the spec's decision D4). -/
def Obligations.AddWithCarryOut : Prop :=
  ∀ (x y : Reg) (s : State),
    ∃ t, exec (.addReg x y) s = .next t ∧ (t.v x).toNat = ((s.v x).toNat + (s.v y).toNat) % 256 ∧
      (x ≠ 15 → t.v 15 = if 255 < (s.v x).toNat + (s.v y).toNat then 1 else 0) ∧
      OtherRegsKept (fun r => r = x ∨ r = 15) s t ∧ OnlyRegs s t

/-- `8XY5`: f is 1 where V[X] > V[Y], else 0; the difference reads X and Y after VF holds f, and VF ends as f unless
X = 0xF (41_alu.md section 2; the order is the spec's decision D4). -/
def Obligations.SubtractWithNoBorrow : Prop :=
  ∀ (x y : Reg) (s : State), let f : Byte := if (s.v y).toNat < (s.v x).toNat then 1 else 0
    ∃ t, exec (.subReg x y) s = .next t ∧
      t.v x = (if x = 15 then f else s.v x) - (if y = 15 then f else s.v y) ∧ (x ≠ 15 → t.v 15 = f) ∧
      OtherRegsKept (fun r => r = x ∨ r = 15) s t ∧ OnlyRegs s t

/-- `8XY7`: f is 1 where V[Y] > V[X], else 0; the difference reads X and Y after VF holds f, and VF ends as f unless
X = 0xF (41_alu.md section 2; the order is the spec's decision D4). -/
def Obligations.ReverseSubtractWithNoBorrow : Prop :=
  ∀ (x y : Reg) (s : State), let f : Byte := if (s.v x).toNat < (s.v y).toNat then 1 else 0
    ∃ t, exec (.subnReg x y) s = .next t ∧
      t.v x = (if y = 15 then f else s.v y) - (if x = 15 then f else s.v x) ∧ (x ≠ 15 → t.v 15 = f) ∧
      OtherRegsKept (fun r => r = x ∨ r = 15) s t ∧ OnlyRegs s t

/-- `8XY6` and `8XYE`: shifts by one with the bit shifted out in VF. With X = 0xF the shifted value is the flag just
written: VF ends 0 after 8XY6, and 2 or 0 after 8XYE (41_alu.md section 2; the order is the spec's decision D4). -/
def Obligations.ShiftsByOne : Prop :=
  ∀ (x : Reg) (s : State),
    (∃ t, exec (.shr x) s = .next t ∧
      (x ≠ 15 → (t.v x).toNat = (s.v x).toNat / 2 ∧ (t.v 15).toNat = (s.v x).toNat % 2) ∧ (x = 15 → t.v 15 = 0) ∧
      OtherRegsKept (fun r => r = x ∨ r = 15) s t ∧ OnlyRegs s t) ∧
    (∃ t, exec (.shl x) s = .next t ∧
      (x ≠ 15 → (t.v x).toNat = (s.v x).toNat * 2 % 256 ∧ (t.v 15).toNat = (s.v x).toNat / 128) ∧
      (x = 15 → (t.v 15).toNat = (s.v x).toNat / 128 * 2) ∧
      OtherRegsKept (fun r => r = x ∨ r = 15) s t ∧ OnlyRegs s t)

/-- `CXNN`: V[X] is the random byte AND NN. With the byte given as r this holds for every r; `exec` takes the byte from
the model's free value at the model's own counter, of which one is consumed (the model's form of RAND_IN, assumption
log entry 3; 41_alu.md section 2, decision D21). -/
def Obligations.RandomByteIsMasked : Prop :=
  (∀ (r nn : Byte) (x : Reg) (s : State), (rndWith r x nn s).v x = r &&& nn ∧
    OtherRegsKept (· = x) s (rndWith r x nn s) ∧ OnlyRegs s (rndWith r x nn s)) ∧
  ∀ (x : Reg) (nn : Byte) (s : State), exec (.rnd x nn) s =
    .next (rndWith (Config.randByte s.randDraws) x nn { s with randDraws := s.randDraws + 1 })

/-! ## Index register and memory (spec/42_index_memory.md) -/

/-- R161 `LD I, addr`. -/
def Obligations.SetIndex : Prop :=
  (∀ (nnn : Addr) (s : State), ∃ t, exec (.ldI nnn) s = .next t ∧ t.i.toNat = nnn.toNat ∧ OnlyI s t) ∧
  ∀ w, fieldFamily w = 0xA → decodeWord w = .ok (.ldI (fieldNNN w))

/-- `ADD I, Vx` wraps modulo 2^16 (decision D7) and `LD F, Vx` does not mask the digit (decision D8); neither faults
nor writes anything but I (42_index_memory.md section 2). -/
def Obligations.IndexArithmetic : Prop :=
  ∀ (x : Reg) (s : State),
    (∃ t, exec (.addI x) s = .next t ∧ t.i.toNat = (s.i.toNat + (s.v x).toNat) % 65536 ∧ OnlyI s t) ∧
    (∃ t, exec (.ldF x) s = .next t ∧ t.i.toNat = 0x050 + 5 * (s.v x).toNat ∧ OnlyI s t)

/-- `LD B, Vx` stores the hundreds, tens and ones of V[X] at I, I + 1, I + 2 and changes nothing else, I included
(42_index_memory.md section 2; I unchanged is the spec's decision D9). -/
def Obligations.BcdDigitsAreStored : Prop :=
  ∀ (x : Reg) (s : State), s.i.toNat + 2 ≤ 0xFFF →
    ∃ t, exec (.ldB x) s = .next t ∧ (t.byte s.i.toNat).toNat = (s.v x).toNat / 100 ∧
      (t.byte (s.i.toNat + 1)).toNat = (s.v x).toNat / 10 % 10 ∧ (t.byte (s.i.toNat + 2)).toNat = (s.v x).toNat % 10 ∧
      OnlyBytes s.i.toNat 3 s t

/-- `LD [I], Vx` stores V0..VX at I..I + X and changes nothing else, I included (42_index_memory.md section 2; I
unchanged is the spec's decision D9). -/
def Obligations.RegistersAreStored : Prop :=
  ∀ (x : Reg) (s : State), s.i.toNat + x.val ≤ 0xFFF →
    ∃ t, exec (.storeRegs x) s = .next t ∧ (∀ k : Reg, k.val ≤ x.val → t.byte (s.i.toNat + k.val) = s.v k) ∧
      OnlyBytes s.i.toNat (x.val + 1) s t

/-- `LD Vx, [I]` loads V0..VX from I..I + X and changes nothing else, I included (42_index_memory.md section 2; I
unchanged is the spec's decision D9). -/
def Obligations.RegistersAreLoaded : Prop :=
  ∀ (x : Reg) (s : State), s.i.toNat + x.val ≤ 0xFFF →
    ∃ t, exec (.loadRegs x) s = .next t ∧ (∀ k : Reg, k.val ≤ x.val → t.v k = s.byte (s.i.toNat + k.val)) ∧
      OtherRegsKept (fun r => r.val ≤ x.val) s t ∧ OnlyRegs s t

/-- FX55 followed by FX65 with the same X and I restores V0..VX, whatever memory and the registers held in between
(42_index_memory.md section 2; 95_test_vectors.md T7). -/
def Obligations.StoreThenLoadRestoresRegisters : Prop :=
  ∀ (x : Reg) (s : State), s.i.toNat + x.val ≤ 0xFFF →
    ∃ t, exec (.storeRegs x) s = .next t ∧ ∀ regs : Vector Byte 16,
      ∃ u, exec (.loadRegs x) { t with regs := regs } = .next u ∧ ∀ k : Reg, k.val ≤ x.val → u.v k = s.v k

/-- R223: the accesses through I that raise MEM_OUT_OF_RANGE, with FAULT_PC the instruction's address, and the
instructions that only set I and never raise it. -/
def Obligations.IndexedAccessOutOfRangeFaults : Prop :=
  (∀ (s : State) (i : Instr), Executes s i →
    ((∃ x y n, i = .drw x y n ∧ 0 < n.toNat ∧ 4096 ≤ s.i.toNat + n.toNat - 1) ∨
      (∃ x, i = .ldB x ∧ 4096 ≤ s.i.toNat + 2) ∨
      (∃ x : Reg, (i = .storeRegs x ∨ i = .loadRegs x) ∧ 4096 ≤ s.i.toNat + x.val)) →
    ∃ t, step s = .next t ∧ t.faultCode = .memOutOfRange ∧ t.faultPc = s.pc) ∧
  ∀ (s t : State) (i : Instr), ((∃ a, i = .ldI a) ∨ (∃ x, i = .addI x) ∨ (∃ x, i = .ldF x)) →
    exec i s = .next t → t.faultCode = s.faultCode

/-! ## Display (spec/43_display.md) -/

/-- R181 `CLS`: every pixel off, nothing else, VF included; every word 0x0nn0 selects it. -/
def Obligations.ClearTurnsEveryPixelOff : Prop :=
  (∀ s : State, ∃ t, exec .cls s = .next t ∧ (∀ x y, t.pixel x y = false) ∧ t = { s with fb := t.fb } ∧
    SameMemory s t) ∧
  ∀ w, fieldFamily w = 0x0 → fieldN w = 0x0 → decodeWord w = .ok .cls

/-- `DXYN` on the pixels: each pixel of the grid is XORed with the sprite's bit there, the origin wrapped and the body
clipped; only the framebuffer and VF change (43_display.md sections 2 and 3; decisions D15 and D16). -/
def Obligations.DrawXorsTheClippedSprite : Prop :=
  ∀ (x y : Reg) (n : Nibble) (s : State), n.toNat = 0 ∨ s.i.toNat + n.toNat - 1 ≤ 0xFFF →
    ∃ t, exec (.drw x y n) s = .next t ∧
      (∀ px py, px < s.params.fbW → py < s.params.fbH → t.pixel px py = (s.pixel px py ^^ Drawn s x y n px py)) ∧
      OtherRegsKept (· = 15) s t ∧ OnlyRegsFb s t

/-- R186, the collision flag of `DXYN`: VF ends 0 or 1, and 1 exactly where some visited pixel was on before its XOR;
such a pixel is off afterwards. -/
def Obligations.DrawSetsVfOnCollision : Prop :=
  ∀ (x y : Reg) (n : Nibble) (s : State), n.toNat = 0 ∨ s.i.toNat + n.toNat - 1 ≤ 0xFFF →
    ∃ t, exec (.drw x y n) s = .next t ∧ (t.v 15 = 0 ∨ t.v 15 = 1) ∧
      (t.v 15 = 1 ↔ ∃ px py, px < s.params.fbW ∧ py < s.params.fbH ∧ Drawn s x y n px py = true ∧
        s.pixel px py = true) ∧
      ∀ px py, Drawn s x y n px py = true → s.pixel px py = true → t.pixel px py = false

/-- `DXYN` with N = 0 draws nothing and clears VF, whatever I holds (43_display.md section 3, derived by the spec). -/
def Obligations.DrawOfNoRowsClearsVf : Prop :=
  ∀ (x y : Reg) (s : State), ∃ t, exec (.drw x y 0) s = .next t ∧ t.v 15 = 0 ∧ t.fb = s.fb ∧
    OtherRegsKept (· = 15) s t ∧ OnlyRegsFb s t

/-- Drawing a sprite twice restores every pixel, and the second draw collides exactly where a visible set bit had its
pixel off before the first, for coordinates that VF does not hold (43_display.md section 3, derived by the spec). -/
def Obligations.DrawTwiceRestoresTheFramebuffer : Prop :=
  ∀ (x y : Reg) (n : Nibble) (s : State), x ≠ 15 → y ≠ 15 → (n.toNat = 0 ∨ s.i.toNat + n.toNat - 1 ≤ 0xFFF) →
    ∃ t u, exec (.drw x y n) s = .next t ∧ exec (.drw x y n) t = .next u ∧
      (∀ px py, u.pixel px py = s.pixel px py) ∧ (u.v 15 = 0 ∨ u.v 15 = 1) ∧
      (u.v 15 = 1 ↔ ∃ px py, px < s.params.fbW ∧ py < s.params.fbH ∧ Drawn s x y n px py = true ∧
        s.pixel px py = false)

/-! ## Keypad and timers (spec/44_keys_timers.md) -/

/-- `SKP Vx` and `SKNP Vx` for a key index 0..15: skip where the key is held, or is not held (section 2). -/
def Obligations.KeySkips : Prop :=
  ∀ (x : Reg) (s : State) (k : Fin 16), (s.v x).toNat = k.val →
    (∃ t, exec (.skp x) s = .next t ∧ t.pc = (if s.key k = true then s.pc + 2 else s.pc) ∧ OnlyPc s t) ∧
    (∃ t, exec (.sknp x) s = .next t ∧ t.pc = (if s.key k = false then s.pc + 2 else s.pc) ∧ OnlyPc s t)

/-- A key index above 15 faults with KEY_OUT_OF_RANGE and does not skip (section 1; the spec's decision D6; PC kept is
what the spec's model leaves, assumption log entry 1). -/
def Obligations.KeyIndexOutOfRangeFaults : Prop :=
  ∀ (x : Reg) (s : State), 15 < (s.v x).toNat →
    (∃ t, exec (.skp x) s = .next t ∧ t.faultCode = .keyOutOfRange ∧ t.pc = s.pc) ∧
    (∃ t, exec (.sknp x) s = .next t ∧ t.faultCode = .keyOutOfRange ∧ t.pc = s.pc)

/-- R204 `LD Vx, K`: the lowest held key goes to V[X] and PC stays; with no key held PC goes back 2, so that the cycle
leaves PC at the instruction, and the Tick still runs. -/
def Obligations.KeyWaitTakesTheLowestHeldKey : Prop :=
  (∀ (x : Reg) (s : State) (k : Fin 16), s.key k = true → (∀ j : Fin 16, j < k → s.key j = false) →
    ∃ t, exec (.ldVxK x) s = .next t ∧ (t.v x).toNat = k.val ∧ OtherRegsKept (· = x) s t ∧ OnlyRegs s t) ∧
  (∀ (x : Reg) (s : State), (∀ k : Fin 16, s.key k = false) →
    ∃ t, exec (.ldVxK x) s = .next t ∧ t.pc = s.pc - 2 ∧ OnlyPc s t) ∧
  (∀ (x : Reg) (s : State), Executes s (.ldVxK x) → (∀ k : Fin 16, s.key k = false) →
    ∃ t, step s = .next t ∧ t.pc = s.pc ∧ t.dt.toNat = s.dt.toNat - 1 ∧ t.st.toNat = s.st.toNat - 1) ∧
  ∀ w, fieldFamily w = 0xF → fieldNN w = 0x0A → decodeWord w = .ok (.ldVxK (fieldX w))

/-- R203, R205, R206: reading DT, setting DT, setting ST, as handlers and over the whole cycle with its Tick; TONE is
on after the cycle of FX18 exactly where V[X] ≥ 2. -/
def Obligations.TimerAccess : Prop :=
  (∀ (x : Reg) (s : State),
    (∃ t, exec (.ldVxDt x) s = .next t ∧ t.v x = s.dt ∧ OtherRegsKept (· = x) s t ∧ OnlyRegs s t) ∧
    (∃ t, exec (.ldDtVx x) s = .next t ∧ t.dt = s.v x ∧ t = { s with dt := t.dt } ∧ SameMemory s t) ∧
    (∃ t, exec (.ldStVx x) s = .next t ∧ t.st = s.v x ∧ t = { s with st := t.st } ∧ SameMemory s t)) ∧
  (∀ (x : Reg) (s : State),
    (Executes s (.ldVxDt x) → ∃ t, step s = .next t ∧ t.v x = s.dt ∧ t.dt.toNat = s.dt.toNat - 1) ∧
    (Executes s (.ldDtVx x) → ∃ t, step s = .next t ∧ t.dt.toNat = (s.v x).toNat - 1) ∧
    (Executes s (.ldStVx x) → ∃ t, step s = .next t ∧ t.st.toNat = (s.v x).toNat - 1 ∧
      (tone t = true ↔ 2 ≤ (s.v x).toNat))) ∧
  ∀ w, fieldFamily w = 0xF → (fieldNN w = 0x07 → decodeWord w = .ok (.ldVxDt (fieldX w))) ∧
    (fieldNN w = 0x15 → decodeWord w = .ok (.ldDtVx (fieldX w))) ∧
    (fieldNN w = 0x18 → decodeWord w = .ok (.ldStVx (fieldX w)))

/-! ## Rules of the whole machine -/

/-- Which instructions write which state: keypad, IR and parameters none; framebuffer CLS and DRW; I the three that set
it; memory FX33 and FX55; DT FX15; ST FX18; SP and the stack RET and CALL; the random input CXNN (10_state.md sections
2, 4, 5, 6, 8, 9 and 12; 20_memory.md section 1). -/
def Obligations.WritersOfEachPieceOfState : Prop :=
  ∀ (i : Instr) (s t : State), exec i s = .next t →
    t.keys = s.keys ∧ t.ir = s.ir ∧ t.params = s.params ∧
    (t.fb ≠ s.fb → i = .cls ∨ ∃ x y n, i = .drw x y n) ∧
    (t.i ≠ s.i → (∃ a, i = .ldI a) ∨ (∃ x, i = .addI x) ∨ ∃ x, i = .ldF x) ∧
    ((∃ a, t.byte a ≠ s.byte a) → (∃ x, i = .ldB x) ∨ ∃ x, i = .storeRegs x) ∧
    (t.dt ≠ s.dt → ∃ x, i = .ldDtVx x) ∧ (t.st ≠ s.st → ∃ x, i = .ldStVx x) ∧
    (t.sp ≠ s.sp ∨ t.stack ≠ s.stack → i = .ret ∨ ∃ a, i = .call a) ∧
    (t.randDraws ≠ s.randDraws → ∃ x nn, i = .rnd x nn)

/-- A general register changes only under an instruction that the table of 10_state.md R22 lists as its writer, VF also
under the flag handlers (section 1, derived by the spec). -/
def Obligations.WritersOfGeneralRegisters : Prop :=
  ∀ (i : Instr) (r : Reg) (s t : State), exec i s = .next t → t.v r ≠ s.v r → mayWrite i r = true

/-- The only instructions that fault, each with its one condition and code (60_exceptions.md section 2, R229: derived by
the spec). -/
def Obligations.OnlyTheListedConditionsFault : Prop :=
  ∀ (i : Instr) (s t : State), exec i s = .next t → t.faultCode ≠ s.faultCode →
    (t.faultCode = .stackUnderflow ∧ i = .ret ∧ s.sp.val = 0) ∨
    (t.faultCode = .stackOverflow ∧ (∃ a, i = .call a) ∧ s.sp.val = 16) ∨
    (t.faultCode = .memOutOfRange ∧
      ((∃ x y n, i = .drw x y n ∧ 0 < n.toNat ∧ 4096 ≤ s.i.toNat + n.toNat - 1) ∨
        (∃ x, i = .ldB x ∧ 4096 ≤ s.i.toNat + 2) ∨
        ∃ x : Reg, (i = .storeRegs x ∨ i = .loadRegs x) ∧ 4096 ≤ s.i.toNat + x.val)) ∨
    (t.faultCode = .keyOutOfRange ∧ ∃ x, (i = .skp x ∨ i = .sknp x) ∧ 15 < (s.v x).toNat)

/-- A cycle that faults writes the fault record, FAULT_PC being the fetch address; of the rest only Fetch's effect on IR
and PC is seen, and none of it where PC could not be fetched. This is the record of the spec's own model (decision D10,
assumption log entry 1); beyond FAULT_CODE the spec gives no guarantee about the hardware (60_exceptions.md R226). -/
def Obligations.FaultingCycleWritesOnlyTheRecord : Prop :=
  ∀ s t : State, s.faultCode = .none → step s = .next t → t.faultCode ≠ .none →
    t.faultPc = s.pc ∧
    ((t.faultCode = .fetchOutOfRange ∧ 0xFFE < s.pc.toNat ∧ OnlyFaultRecord s t) ∨
      (t.faultCode ≠ .fetchOutOfRange ∧ s.pc.toNat ≤ 0xFFE ∧ t.pc = s.pc + 2 ∧
        t = { s with ir := t.ir, pc := t.pc, faultCode := t.faultCode, faultPc := t.faultPc }))

/-- Only RESET leaves the faulted state, and RESET does leave it (60_exceptions.md section 2, 70_reset_and_hazards.md
section 1; decision D11). -/
def Obligations.OnlyResetLeavesTheFaultedState : Prop :=
  (∀ (tr : Transaction) (s t : State), s.faultCode ≠ .none → transact tr s = .next t → t.faultCode = .none →
    tr = .reset) ∧
  ∀ s : State, ∃ t, transact .reset s = .next t ∧ t.faultCode = .none ∧
    t = { State.resetWith s.params with randDraws := t.randDraws }

/-- No instruction changes the parameters, and no STEP clears or changes a recorded fault (10_state.md section 10;
decision D11). -/
def Obligations.StepKeepsParametersAndRecordedFaults : Prop :=
  ∀ s t : State, step s = .next t →
    t.params = s.params ∧ (s.faultCode ≠ .none → t.faultCode = s.faultCode ∧ t.faultPc = s.faultPc)

/-! ## The host's transactions (spec/70_reset_and_hazards.md section 3) -/

/-- LOAD copies the bytes to 0x200 on and changes nothing else; more than 3584 bytes is LOAD_TOO_LARGE, with no byte
written and FAULT_PC kept (section 3; decision D18). -/
def Obligations.LoadCopiesTheImage : Prop :=
  (∀ (bs : List Byte) (s : State), s.faultCode = .none → bs.length ≤ 3584 →
    (∀ k, k < bs.length → bs[k]? = some ((hostLoad bs s).byte (0x200 + k))) ∧
    OnlyBytes 0x200 bs.length s (hostLoad bs s)) ∧
  ∀ (bs : List Byte) (s : State), s.faultCode = .none → 3584 < bs.length →
    hostLoad bs s = { s with faultCode := .loadTooLarge }

/-- R242: TONE is 1 exactly while ST ≠ 0. -/
def Obligations.ToneIsOnWhileStIsNonZero : Prop :=
  ∀ s : State, tone s = true ↔ s.st.toNat ≠ 0

/-- KEY_IN writes bit k into key k and nothing else; FB_OUT is the pixels in row-major order (10_state.md section 13;
decisions D20 and D23). That KEY_IN writes KEYS of a faulted machine too is the model's choice (assumption log
entry 21). -/
def Obligations.KeyInputAndFramebufferOutput : Prop :=
  (∀ (k : BitVec 16) (s : State), (∀ j : Fin 16, (hostKeyIn k s).key j = k.getLsbD j.val) ∧
    hostKeyIn k s = { s with keys := (hostKeyIn k s).keys }) ∧
  ∀ (s : State) (x y : Nat), x < s.params.fbW → y < s.params.fbH →
    (fbOut s)[y * s.params.fbW + x]? = some (s.pixel x y)
end

