-- ==== Sys2Proof/Laws/Framebuffer.lean ====
section
/-! SUPPORT. The laws of the framebuffer and of the blit engine: what one pixel, one row and a whole sprite do to every
pixel and to the collision flag. The laws hold for every framebuffer list, canonical or not. -/

namespace Sys2Proof.Machine

theorem Framebuffer.mem_insert (p q : Nat) (f : Framebuffer) :
    q ∈ Framebuffer.insert p f ↔ q = p ∨ q ∈ f := by
  induction f with
  | nil => simp [Framebuffer.insert]
  | cons r f ih =>
    simp only [Framebuffer.insert]
    split
    · simp
    · simp only [List.mem_cons, ih]; tauto

/-- The pixel toggled changes, every other stays. -/
theorem Framebuffer.contains_toggle (p q : Nat) (f : Framebuffer) :
    (Framebuffer.toggle p f).contains q = (f.contains q ^^ decide (q = p)) := by
  unfold Framebuffer.toggle
  by_cases hp : p ∈ f
  · by_cases hq : q = p
    · subst hq; simp [hp]
    · simp [hp, hq]
  · by_cases hq : q = p
    · subst hq; simp [hp, Framebuffer.mem_insert]
    · simp [hp, hq, Framebuffer.mem_insert]

theorem Framebuffer.pairwise_insert (p : Nat) (f : Framebuffer) (h : f.Pairwise (· < ·)) (hp : p ∉ f) :
    (Framebuffer.insert p f).Pairwise (· < ·) := by
  induction f with
  | nil => simp [Framebuffer.insert]
  | cons r f ih =>
    have hr := List.pairwise_cons.mp h
    simp only [Framebuffer.insert]
    split
    · next hlt =>
      refine List.pairwise_cons.mpr ⟨fun q hq => ?_, h⟩
      rcases List.mem_cons.mp hq with rfl | hq
      · exact hlt
      · exact Nat.lt_trans hlt (hr.1 q hq)
    · next hlt =>
      simp only [List.mem_cons, not_or] at hp
      refine List.pairwise_cons.mpr ⟨fun q hq => ?_, ih hr.2 hp.2⟩
      rcases (Framebuffer.mem_insert p q f).mp hq with rfl | hq
      · omega
      · exact hr.1 q hq

/-- A toggle inside the grid keeps the canonical form. -/
theorem Framebuffer.wf_toggle (w h p : Nat) (f : Framebuffer) (hp : p < w * h) (hf : Framebuffer.wf w h f) :
    Framebuffer.wf w h (Framebuffer.toggle p f) := by
  unfold Framebuffer.toggle
  split
  · exact ⟨hf.1.filter _, fun q hq => hf.2 q (List.mem_of_mem_filter hq)⟩
  · next hc =>
    refine ⟨Framebuffer.pairwise_insert p f hf.1 (by simpa using hc), fun q hq => ?_⟩
    rcases (Framebuffer.mem_insert p q f).mp hq with rfl | hq
    · exact hp
    · exact hf.2 q hq

/-- Distinct pixels of the grid have distinct indices (R180). -/
theorem pixelIndex_inj (w x y x' y' : Nat) (hx : x < w) (hx' : x' < w) :
    pixelIndex w x y = pixelIndex w x' y' ↔ x = x' ∧ y = y' := by
  unfold pixelIndex
  constructor
  · intro h
    have hm := congrArg (· % w) h
    have hd := congrArg (· / w) h
    have hw : 0 < w := by omega
    simp only [Nat.mul_add_mod_self_right, Nat.mod_eq_of_lt hx, Nat.mod_eq_of_lt hx'] at hm
    rw [Nat.mul_comm y, Nat.mul_comm y'] at hd
    simp only [Nat.mul_add_div hw, Nat.div_eq_of_lt hx, Nat.div_eq_of_lt hx'] at hd
    omega
  · rintro ⟨rfl, rfl⟩; rfl

theorem pixelIndex_lt (w h x y : Nat) (hx : x < w) (hy : y < h) : pixelIndex w x y < w * h := by
  unfold pixelIndex
  calc y * w + x < y * w + w := by omega
    _ = (y + 1) * w := by ring
    _ ≤ h * w := Nat.mul_le_mul_right w hy
    _ = w * h := Nat.mul_comm h w

/-- The pixels one column of a row visits. -/
theorem blitPixel_contains (p : Params) (px py x y : Nat) (b : Blit) (hx : x < p.fbW) (hy : y < p.fbH) :
    (blitPixel p px py b).1.contains (pixelIndex p.fbW x y) =
      (b.1.contains (pixelIndex p.fbW x y) ^^ decide (x = px ∧ y = py)) := by
  unfold blitPixel
  split
  · next h =>
    rw [Framebuffer.contains_toggle]
    congr 1
    exact decide_eq_decide.mpr (pixelIndex_inj p.fbW x y px py hx h.1)
  · next h =>
    have : ¬ (x = px ∧ y = py) := by rintro ⟨rfl, rfl⟩; exact h ⟨hx, hy⟩
    simp [this]

/-- The collision flag after one pixel. -/
theorem blitPixel_hit (p : Params) (px py : Nat) (b : Blit) :
    (blitPixel p px py b).2 =
      (b.2 || (decide (px < p.fbW ∧ py < p.fbH) && b.1.contains (pixelIndex p.fbW px py))) := by
  unfold blitPixel
  split
  · next h => simp only [h, and_self, decide_true, Bool.true_and]
  · next h => simp only [h, decide_false, Bool.false_and, Bool.or_false]

theorem blitPixel_wf (p : Params) (px py : Nat) (b : Blit) (h : Framebuffer.wf p.fbW p.fbH b.1) :
    Framebuffer.wf p.fbW p.fbH (blitPixel p px py b).1 := by
  unfold blitPixel
  split
  · next hin => exact Framebuffer.wf_toggle _ _ _ _ (pixelIndex_lt _ _ _ _ hin.1 hin.2) h
  · exact h

end Sys2Proof.Machine
end

