-- ==== Sys2Proof/Laws/Blit.lean ====
section
/-! SUPPORT. What the blit engine does to every pixel and to the collision flag, in closed form (spec/43_display.md
R185, R186): one row, then all rows. -/

namespace Sys2Proof.Machine

/-- The first `n` columns of a row, at one pixel of the grid. -/
theorem blitCols_contains (p : Params) (x0 py : Nat) (sprite : Byte) (b : Blit) (n x y : Nat)
    (hx : x < p.fbW) (hy : y < p.fbH) :
    (((List.range n).foldl
        (fun b col => if spriteBit sprite col then blitPixel p (x0 + col) py b else b) b).1.contains
        (pixelIndex p.fbW x y)) =
      (b.1.contains (pixelIndex p.fbW x y) ^^
        (decide (y = py ∧ x0 ≤ x ∧ x < x0 + n) && spriteBit sprite (x - x0))) := by
  induction n with
  | zero =>
    have : ¬ (y = py ∧ x0 ≤ x ∧ x < x0) := by omega
    simp [this]
  | succ n ih =>
    rw [List.range_succ, List.foldl_append]
    simp only [List.foldl_cons, List.foldl_nil]
    by_cases hxn : x = x0 + n ∧ y = py
    · obtain ⟨rfl, rfl⟩ := hxn
      have h1 : ¬ (y = y ∧ x0 ≤ x0 + n ∧ x0 + n < x0 + n) := by omega
      have h2 : y = y ∧ x0 ≤ x0 + n ∧ x0 + n < x0 + (n + 1) := by omega
      rw [decide_eq_false h1, Bool.false_and, Bool.xor_false] at ih
      rw [decide_eq_true h2, Nat.add_sub_cancel_left, Bool.true_and]
      split
      · next hs => rw [blitPixel_contains _ _ _ _ _ _ hx hy, ih]; simp [hs]
      · next hs => rw [ih]; simp [hs]
    · have h3 : decide (y = py ∧ x0 ≤ x ∧ x < x0 + (n + 1)) = decide (y = py ∧ x0 ≤ x ∧ x < x0 + n) :=
        decide_eq_decide.mpr (by omega)
      rw [h3]
      split
      · rw [blitPixel_contains _ _ _ _ _ _ hx hy, ih, decide_eq_false hxn, Bool.xor_false]
      · exact ih

/-- The collision flag after the first `n` columns of a row. -/
theorem blitCols_hit (p : Params) (x0 py : Nat) (sprite : Byte) (b : Blit) (n : Nat) :
    ((List.range n).foldl
        (fun b col => if spriteBit sprite col then blitPixel p (x0 + col) py b else b) b).2 = true ↔
      b.2 = true ∨ ∃ x, x < p.fbW ∧ py < p.fbH ∧ x0 ≤ x ∧ x < x0 + n ∧ spriteBit sprite (x - x0) = true ∧
        b.1.contains (pixelIndex p.fbW x py) = true := by
  induction n with
  | zero =>
    simp only [List.range_zero, List.foldl_nil]
    exact ⟨Or.inl, fun h => h.elim id fun ⟨x, _, _, h1, h2, _⟩ => by omega⟩
  | succ n ih =>
    rw [List.range_succ, List.foldl_append]
    simp only [List.foldl_cons, List.foldl_nil]
    split
    · next hs =>
      rw [blitPixel_hit, Bool.or_eq_true, ih, Bool.and_eq_true, decide_eq_true_eq]
      constructor
      · rintro ((h | ⟨x, h1, h2, h3, h4, h5⟩) | ⟨⟨hw, hh⟩, hc⟩)
        · exact Or.inl h
        · exact Or.inr ⟨x, h1, h2, h3, by omega, h5⟩
        · refine Or.inr ⟨x0 + n, hw, hh, by omega, by omega, ?_, ?_⟩
          · rw [Nat.add_sub_cancel_left]; exact hs
          · rw [blitCols_contains _ _ _ _ _ _ _ _ hw hh] at hc
            have : ¬ (py = py ∧ x0 ≤ x0 + n ∧ x0 + n < x0 + n) := by omega
            simpa [this] using hc
      · rintro (h | ⟨x, h1, h2, h3, h4, h5, h6⟩)
        · exact Or.inl (Or.inl h)
        · by_cases hx : x = x0 + n
          · subst hx
            refine Or.inr ⟨⟨h1, h2⟩, ?_⟩
            rw [blitCols_contains _ _ _ _ _ _ _ _ h1 h2]
            have : ¬ (py = py ∧ x0 ≤ x0 + n ∧ x0 + n < x0 + n) := by omega
            simpa [this] using h6
          · exact Or.inl (Or.inr ⟨x, h1, h2, h3, by omega, h5, h6⟩)
    · next hs =>
      rw [ih]
      constructor
      · rintro (h | ⟨x, h1, h2, h3, h4, h5⟩)
        · exact Or.inl h
        · exact Or.inr ⟨x, h1, h2, h3, by omega, h5⟩
      · rintro (h | ⟨x, h1, h2, h3, h4, h5, h6⟩)
        · exact Or.inl h
        · by_cases hx : x = x0 + n
          · subst hx; rw [Nat.add_sub_cancel_left] at h5; exact absurd h5 hs
          · exact Or.inr ⟨x, h1, h2, h3, by omega, h5, h6⟩

theorem blitCols_wf (p : Params) (x0 py : Nat) (sprite : Byte) (b : Blit) (cols : List Nat)
    (h : Framebuffer.wf p.fbW p.fbH b.1) :
    Framebuffer.wf p.fbW p.fbH (cols.foldl
        (fun b col => if spriteBit sprite col then blitPixel p (x0 + col) py b else b) b).1 := by
  induction cols generalizing b with
  | nil => exact h
  | cons c cols ih =>
    simp only [List.foldl_cons]
    split
    · exact ih _ (blitPixel_wf p _ _ b h)
    · exact ih _ h

/-- All rows, at one pixel of the grid: the pixel is XORed with the sprite's bit there. -/
theorem blitRows_contains (p : Params) (x0 y0 : Nat) (rows : List Byte) (b : Blit) (x y : Nat)
    (hx : x < p.fbW) (hy : y < p.fbH) :
    (blitRows p x0 y0 rows b).1.contains (pixelIndex p.fbW x y) =
      (b.1.contains (pixelIndex p.fbW x y) ^^ spriteCovers x0 y0 rows x y) := by
  induction rows generalizing y0 b with
  | nil =>
    have : ¬ (x0 ≤ x ∧ x < x0 + 8 ∧ y0 ≤ y ∧ y < y0 + 0) := by omega
    simp only [blitRows, spriteCovers, List.length_nil, decide_eq_false this, Bool.false_and, Bool.xor_false]
  | cons r rows ih =>
    rw [blitRows, ih, blitRow, blitCols_contains _ _ _ _ _ _ _ _ hx hy, Bool.xor_assoc]
    congr 1
    simp only [spriteCovers, spriteBit, List.length_cons]
    by_cases hy0 : y = y0
    · subst hy0
      have h1 : ¬ (x0 ≤ x ∧ x < x0 + 8 ∧ y + 1 ≤ y ∧ y < y + 1 + rows.length) := by omega
      have h2 : decide (y = y ∧ x0 ≤ x ∧ x < x0 + 8) =
          decide (x0 ≤ x ∧ x < x0 + 8 ∧ y ≤ y ∧ y < y + (rows.length + 1)) := decide_eq_decide.mpr (by omega)
      rw [decide_eq_false h1, h2]
      simp
    · have h1 : ¬ (y = y0 ∧ x0 ≤ x ∧ x < x0 + 8) := by omega
      have h2 : decide (x0 ≤ x ∧ x < x0 + 8 ∧ y0 ≤ y ∧ y < y0 + (rows.length + 1)) =
          decide (x0 ≤ x ∧ x < x0 + 8 ∧ y0 + 1 ≤ y ∧ y < y0 + 1 + rows.length) := decide_eq_decide.mpr (by omega)
      rw [decide_eq_false h1, h2, Bool.false_and, Bool.false_xor]
      by_cases hy1 : y0 + 1 ≤ y
      · have h3 : y - y0 = (y - (y0 + 1)) + 1 := by omega
        rw [h3, List.getD_cons_succ]
      · have h4 : ¬ (x0 ≤ x ∧ x < x0 + 8 ∧ y0 + 1 ≤ y ∧ y < y0 + 1 + rows.length) := by omega
        rw [decide_eq_false h4, Bool.false_and, Bool.false_and]

/-- The collision flag after all rows: some set sprite bit met a pixel of the grid that was on before. -/
theorem blitRows_hit (p : Params) (x0 y0 : Nat) (rows : List Byte) (b : Blit) :
    (blitRows p x0 y0 rows b).2 = true ↔
      b.2 = true ∨ ∃ x y, x < p.fbW ∧ y < p.fbH ∧ spriteCovers x0 y0 rows x y = true ∧
        b.1.contains (pixelIndex p.fbW x y) = true := by
  induction rows generalizing y0 b with
  | nil =>
    simp only [blitRows]
    refine ⟨Or.inl, fun h => h.elim id ?_⟩
    rintro ⟨x, y, _, _, hc, _⟩
    simp only [spriteCovers, List.length_nil, Bool.and_eq_true, decide_eq_true_eq] at hc
    omega
  | cons r rows ih =>
    rw [blitRows, ih, blitRow, blitCols_hit]
    constructor
    · rintro ((h | ⟨x, h1, h2, h3, h4, h5, h6⟩) | ⟨x, y, h1, h2, h3, h4⟩)
      · exact Or.inl h
      · refine Or.inr ⟨x, y0, h1, h2, ?_, h6⟩
        simp only [spriteCovers, List.length_cons, Bool.and_eq_true, decide_eq_true_eq]
        refine ⟨by omega, ?_⟩
        simpa [spriteBit] using h5
      · simp only [spriteCovers, Bool.and_eq_true, decide_eq_true_eq] at h3
        rw [blitCols_contains _ _ _ _ _ _ _ _ h1 h2,
          decide_eq_false (by omega : ¬ (y = y0 ∧ x0 ≤ x ∧ x < x0 + 8)), Bool.false_and, Bool.xor_false] at h4
        refine Or.inr ⟨x, y, h1, h2, ?_, h4⟩
        simp only [spriteCovers, List.length_cons, Bool.and_eq_true, decide_eq_true_eq]
        refine ⟨by omega, ?_⟩
        have h5 : y - y0 = (y - (y0 + 1)) + 1 := by omega
        rw [h5, List.getD_cons_succ]
        exact h3.2
    · rintro (h | ⟨x, y, h1, h2, h3, h4⟩)
      · exact Or.inl (Or.inl h)
      · simp only [spriteCovers, List.length_cons, Bool.and_eq_true, decide_eq_true_eq] at h3
        by_cases hy : y = y0
        · subst hy
          refine Or.inl (Or.inr ⟨x, h1, h2, h3.1.1, h3.1.2.1, ?_, h4⟩)
          simpa [spriteBit] using h3.2
        · refine Or.inr ⟨x, y, h1, h2, ?_, ?_⟩
          · simp only [spriteCovers, Bool.and_eq_true, decide_eq_true_eq]
            refine ⟨by omega, ?_⟩
            have h5 : y - y0 = (y - (y0 + 1)) + 1 := by omega
            rw [h5, List.getD_cons_succ] at h3
            exact h3.2
          · rw [blitCols_contains _ _ _ _ _ _ _ _ h1 h2,
              decide_eq_false (by omega : ¬ (y = y0 ∧ x0 ≤ x ∧ x < x0 + 8)), Bool.false_and, Bool.xor_false]
            exact h4

theorem blitRows_wf (p : Params) (x0 y0 : Nat) (rows : List Byte) (b : Blit)
    (h : Framebuffer.wf p.fbW p.fbH b.1) : Framebuffer.wf p.fbW p.fbH (blitRows p x0 y0 rows b).1 := by
  induction rows generalizing y0 b with
  | nil => exact h
  | cons r rows ih => exact ih _ _ (blitCols_wf p x0 y0 r b _ h)

end Sys2Proof.Machine
end

