-- ==== Sys2Proof/Laws/Decode.lean ====
section
/-! SUPPORT. The fields of packed words and the bytes of a word (spec/30_encoding.md R86, R61). -/

namespace Sys2Proof

@[simp] theorem fieldFamily_packNNN (f : Nibble) (a : Addr) : fieldFamily (packNNN f a) = f := by
  unfold fieldFamily packNNN; ext i hi; simp; grind

@[simp] theorem fieldNNN_packNNN (f : Nibble) (a : Addr) : fieldNNN (packNNN f a) = a := by
  unfold fieldNNN packNNN; ext i hi; simp; grind

@[simp] theorem fieldFamily_packXNN (f : Nibble) (x : Reg) (b : Byte) : fieldFamily (packXNN f x b) = f := by
  unfold fieldFamily packXNN; ext i hi; simp; grind

@[simp] theorem fieldX_packXNN (f : Nibble) (x : Reg) (b : Byte) : fieldX (packXNN f x b) = x := by
  have h : ∀ d : BitVec 4, (f ++ d ++ b).extractLsb' 8 4 = d := fun d => by ext i hi; simp; grind
  exact congrArg BitVec.toFin (h (BitVec.ofFin x))

@[simp] theorem fieldNN_packXNN (f : Nibble) (x : Reg) (b : Byte) : fieldNN (packXNN f x b) = b := by
  unfold fieldNN packXNN; ext i hi; simp; grind

theorem fieldN_packXNN (f : Nibble) (x : Reg) (b : Byte) : fieldN (packXNN f x b) = b.extractLsb' 0 4 := by
  unfold fieldN packXNN; ext i hi; simp; grind

@[simp] theorem fieldFamily_packXYN (f : Nibble) (x y : Reg) (n : Nibble) : fieldFamily (packXYN f x y n) = f := by
  unfold fieldFamily packXYN; ext i hi; simp; grind

@[simp] theorem fieldX_packXYN (f : Nibble) (x y : Reg) (n : Nibble) : fieldX (packXYN f x y n) = x := by
  have h : ∀ d e : BitVec 4, (f ++ d ++ e ++ n).extractLsb' 8 4 = d := fun d e => by ext i hi; simp; grind
  exact congrArg BitVec.toFin (h (BitVec.ofFin x) (BitVec.ofFin y))

@[simp] theorem fieldY_packXYN (f : Nibble) (x y : Reg) (n : Nibble) : fieldY (packXYN f x y n) = y := by
  have h : ∀ d e : BitVec 4, (f ++ d ++ e ++ n).extractLsb' 4 4 = e := fun d e => by ext i hi; simp; grind
  exact congrArg BitVec.toFin (h (BitVec.ofFin x) (BitVec.ofFin y))

@[simp] theorem fieldN_packXYN (f : Nibble) (x y : Reg) (n : Nibble) : fieldN (packXYN f x y n) = n := by
  unfold fieldN packXYN; ext i hi; simp; grind

/-- The two bytes of a word, put together again. -/
@[simp] theorem wordOfBytes_bytes (w : Word) : wordOfBytes (highByte w) (lowByte w) = w := by
  unfold wordOfBytes highByte lowByte; ext i hi; simp; grind

end Sys2Proof
end

