-- ==== Sys2Proof/Laws/Memory.lean ====
section
/-! SUPPORT. The laws of the memory list: what a read after a write gives, and that every operation keeps the
canonical form. The read laws hold for every list, canonical or not. -/

namespace Sys2Proof.Machine

theorem Memory.lookup_erase (a b : Nat) (m : Memory) :
    Memory.lookup b (Memory.erase a m) = if b = a then none else Memory.lookup b m := by
  induction m with
  | nil => simp [Memory.erase, Memory.lookup]
  | cons c m ih =>
    obtain ⟨c1, c2⟩ := c
    simp only [Memory.erase] at ih ⊢
    by_cases hc : c1 = a
    · subst hc
      by_cases hb : b = c1
      · subst hb; simpa using ih
      · have hb' : ¬ c1 = b := fun h => hb h.symm
        simpa [Memory.lookup, hb, hb'] using ih
    · by_cases hb : b = c1
      · subst hb; simp [Memory.lookup, hc]
      · have hb' : ¬ c1 = b := fun h => hb h.symm
        simpa [Memory.lookup, hc, hb'] using ih

theorem Memory.lookup_insert (a b : Nat) (v : Byte) (m : Memory) (h : Memory.lookup a m = none) :
    Memory.lookup b (Memory.insert a v m) = if b = a then some v else Memory.lookup b m := by
  induction m with
  | nil =>
    by_cases hb : b = a
    · simp [Memory.insert, Memory.lookup, hb]
    · have hb' : ¬ a = b := fun h => hb h.symm
      simp [Memory.insert, Memory.lookup, hb, hb']
  | cons c m ih =>
    obtain ⟨c1, c2⟩ := c
    have hc : ¬ c1 = a := fun hc => by simp [Memory.lookup, hc] at h
    have hm : Memory.lookup a m = none := by simpa [Memory.lookup, hc] using h
    simp only [Memory.insert]
    split
    · by_cases hb : b = a
      · simp [Memory.lookup, hb]
      · have hb' : ¬ a = b := fun h => hb h.symm
        simp [Memory.lookup, hb, hb']
    · by_cases hb : c1 = b
      · subst hb; simp [Memory.lookup, hc]
      · simp [Memory.lookup, hb, ih hm]

/-- A read gives the byte last written at its address, and a write leaves every other address alone (R70). -/
theorem Memory.read_write (font : Vector Byte 80) (m : Memory) (a b : Nat) (v : Byte) :
    Memory.read font (Memory.write font m a v) b = if b = a then v else Memory.read font m b := by
  unfold Memory.read Memory.write
  split
  · next hv =>
    rw [Memory.lookup_erase]
    split
    · next hb => simp [hv, hb]
    · rfl
  · rw [Memory.lookup_insert _ _ _ _ (by simp [Memory.lookup_erase]), Memory.lookup_erase]
    split <;> simp

theorem Memory.mem_insert (a : Nat) (v : Byte) (m : Memory) (c : Host.Cell) :
    c ∈ Memory.insert a v m ↔ c = (a, v) ∨ c ∈ m := by
  induction m with
  | nil => simp [Memory.insert]
  | cons d m ih =>
    simp only [Memory.insert]
    split
    · simp
    · simp only [List.mem_cons, ih]
      tauto

theorem Memory.pairwise_insert (a : Nat) (v : Byte) (m : Memory)
    (h : m.Pairwise fun c d => c.1 < d.1) (ha : ∀ c ∈ m, c.1 ≠ a) :
    (Memory.insert a v m).Pairwise fun c d => c.1 < d.1 := by
  induction m with
  | nil => simp [Memory.insert]
  | cons d m ih =>
    have hd := List.pairwise_cons.mp h
    simp only [Memory.insert]
    split
    · next hlt =>
      refine List.pairwise_cons.mpr ⟨fun c hc => ?_, h⟩
      rcases List.mem_cons.mp hc with rfl | hc
      · exact hlt
      · exact Nat.lt_trans hlt (hd.1 c hc)
    · next hlt =>
      have hne := ha d (by simp)
      refine List.pairwise_cons.mpr ⟨fun c hc => ?_, ih hd.2 fun c hc => ha c (by simp [hc])⟩
      rcases (Memory.mem_insert a v m c).mp hc with rfl | hc
      · simp only; omega
      · exact hd.1 c hc

theorem Memory.wf_erase (font : Vector Byte 80) (m : Memory) (a : Nat) (h : Memory.wf font m) :
    Memory.wf font (Memory.erase a m) :=
  ⟨h.1.filter _, fun c hc => h.2 c (List.mem_of_mem_filter hc)⟩

/-- A write inside the address space keeps the canonical form. -/
theorem Memory.wf_write (font : Vector Byte 80) (m : Memory) (a : Nat) (v : Byte) (ha : a < Config.memSize)
    (h : Memory.wf font m) : Memory.wf font (Memory.write font m a v) := by
  have he := Memory.wf_erase font m a h
  unfold Memory.write
  split
  · exact he
  · next hv =>
    refine ⟨Memory.pairwise_insert a v _ he.1 fun c hc => ?_, fun c hc => ?_⟩
    · simpa using (List.mem_filter.mp hc).2
    · rcases (Memory.mem_insert a v _ c).mp hc with rfl | hc
      · exact ⟨ha, hv⟩
      · exact he.2 c hc

/-- The reset memory is canonical. -/
theorem Memory.wf_nil (font : Vector Byte 80) : Memory.wf font [] := by simp [Memory.wf]

/-! ### The machine's memory -/

theorem State.byte_setByte (s : State) (a b : Nat) (v : Byte) :
    (s.setByte a v).byte b = if b = a then v else s.byte b :=
  Memory.read_write s.params.font s.mem a b v

/-- A block write changes memory and nothing else. -/
theorem State.setBytes_frame (s : State) (a : Nat) (vs : List Byte) :
    s.setBytes a vs = { s with mem := (s.setBytes a vs).mem } := by
  induction vs generalizing s a with
  | nil => rfl
  | cons v vs ih => simp only [State.setBytes]; rw [ih]; rfl

/-- What a block write leaves at every address. -/
theorem State.byte_setBytes (s : State) (a b : Nat) (vs : List Byte) :
    (s.setBytes a vs).byte b = if a ≤ b ∧ b < a + vs.length then vs.getD (b - a) 0 else s.byte b := by
  induction vs generalizing s a with
  | nil => simp only [State.setBytes, List.length_nil]; split <;> [omega; rfl]
  | cons v vs ih =>
    simp only [State.setBytes, ih, State.byte_setByte, List.length_cons]
    by_cases hb : b = a
    · subst hb
      simp
    · by_cases hin : a + 1 ≤ b ∧ b < a + 1 + vs.length
      · have h1 : a ≤ b ∧ b < a + (vs.length + 1) := by omega
        have h2 : b - a = (b - (a + 1)) + 1 := by omega
        rw [if_pos hin, if_pos h1, h2, List.getD_cons_succ]
      · have h1 : ¬ (a ≤ b ∧ b < a + (vs.length + 1)) := by omega
        rw [if_neg hin, if_neg h1, if_neg hb]

/-- A block write inside the address space keeps the canonical form. -/
theorem State.wf_setBytes (s : State) (a : Nat) (vs : List Byte) (ha : a + vs.length ≤ Config.memSize)
    (h : Memory.wf s.params.font s.mem) : Memory.wf s.params.font (s.setBytes a vs).mem := by
  induction vs generalizing s a with
  | nil => exact h
  | cons v vs ih =>
    simp only [List.length_cons] at ha
    exact ih (s.setByte a v) (a + 1) (by omega) (Memory.wf_write s.params.font s.mem a v (by omega) h)

end Sys2Proof.Machine
end

