-- ==== Sys2Proof/Laws/State.lean ====
section
/-! SUPPORT. One lemma per field per named update of State, each true by rfl, so that no proof unfolds an update. -/

namespace Sys2Proof.Machine

variable (s : State)

/-! ### setV -/

@[simp] theorem State.setV_regs (x : Reg) (b : Byte) : (s.setV x b).regs = s.regs.set x.val b := rfl
@[simp] theorem State.setV_i (x : Reg) (b : Byte) : (s.setV x b).i = s.i := rfl
@[simp] theorem State.setV_pc (x : Reg) (b : Byte) : (s.setV x b).pc = s.pc := rfl
@[simp] theorem State.setV_sp (x : Reg) (b : Byte) : (s.setV x b).sp = s.sp := rfl
@[simp] theorem State.setV_stack (x : Reg) (b : Byte) : (s.setV x b).stack = s.stack := rfl
@[simp] theorem State.setV_dt (x : Reg) (b : Byte) : (s.setV x b).dt = s.dt := rfl
@[simp] theorem State.setV_st (x : Reg) (b : Byte) : (s.setV x b).st = s.st := rfl
@[simp] theorem State.setV_ir (x : Reg) (b : Byte) : (s.setV x b).ir = s.ir := rfl
@[simp] theorem State.setV_mem (x : Reg) (b : Byte) : (s.setV x b).mem = s.mem := rfl
@[simp] theorem State.setV_fb (x : Reg) (b : Byte) : (s.setV x b).fb = s.fb := rfl
@[simp] theorem State.setV_keys (x : Reg) (b : Byte) : (s.setV x b).keys = s.keys := rfl
@[simp] theorem State.setV_faultCode (x : Reg) (b : Byte) : (s.setV x b).faultCode = s.faultCode := rfl
@[simp] theorem State.setV_faultPc (x : Reg) (b : Byte) : (s.setV x b).faultPc = s.faultPc := rfl
@[simp] theorem State.setV_randDraws (x : Reg) (b : Byte) : (s.setV x b).randDraws = s.randDraws := rfl
@[simp] theorem State.setV_params (x : Reg) (b : Byte) : (s.setV x b).params = s.params := rfl
@[simp] theorem State.setV_byte (x : Reg) (b : Byte) (c : Nat) : (s.setV x b).byte c = s.byte c := rfl

/-! ### setI -/

@[simp] theorem State.setI_regs (a : Word) : (s.setI a).regs = s.regs := rfl
@[simp] theorem State.setI_i (a : Word) : (s.setI a).i = a := rfl
@[simp] theorem State.setI_pc (a : Word) : (s.setI a).pc = s.pc := rfl
@[simp] theorem State.setI_sp (a : Word) : (s.setI a).sp = s.sp := rfl
@[simp] theorem State.setI_stack (a : Word) : (s.setI a).stack = s.stack := rfl
@[simp] theorem State.setI_dt (a : Word) : (s.setI a).dt = s.dt := rfl
@[simp] theorem State.setI_st (a : Word) : (s.setI a).st = s.st := rfl
@[simp] theorem State.setI_ir (a : Word) : (s.setI a).ir = s.ir := rfl
@[simp] theorem State.setI_mem (a : Word) : (s.setI a).mem = s.mem := rfl
@[simp] theorem State.setI_fb (a : Word) : (s.setI a).fb = s.fb := rfl
@[simp] theorem State.setI_keys (a : Word) : (s.setI a).keys = s.keys := rfl
@[simp] theorem State.setI_faultCode (a : Word) : (s.setI a).faultCode = s.faultCode := rfl
@[simp] theorem State.setI_faultPc (a : Word) : (s.setI a).faultPc = s.faultPc := rfl
@[simp] theorem State.setI_randDraws (a : Word) : (s.setI a).randDraws = s.randDraws := rfl
@[simp] theorem State.setI_params (a : Word) : (s.setI a).params = s.params := rfl
@[simp] theorem State.setI_byte (a : Word) (c : Nat) : (s.setI a).byte c = s.byte c := rfl
@[simp] theorem State.setI_v (a : Word) (r : Reg) : (s.setI a).v r = s.v r := rfl

/-! ### setPc -/

@[simp] theorem State.setPc_regs (a : Word) : (s.setPc a).regs = s.regs := rfl
@[simp] theorem State.setPc_i (a : Word) : (s.setPc a).i = s.i := rfl
@[simp] theorem State.setPc_pc (a : Word) : (s.setPc a).pc = a := rfl
@[simp] theorem State.setPc_sp (a : Word) : (s.setPc a).sp = s.sp := rfl
@[simp] theorem State.setPc_stack (a : Word) : (s.setPc a).stack = s.stack := rfl
@[simp] theorem State.setPc_dt (a : Word) : (s.setPc a).dt = s.dt := rfl
@[simp] theorem State.setPc_st (a : Word) : (s.setPc a).st = s.st := rfl
@[simp] theorem State.setPc_ir (a : Word) : (s.setPc a).ir = s.ir := rfl
@[simp] theorem State.setPc_mem (a : Word) : (s.setPc a).mem = s.mem := rfl
@[simp] theorem State.setPc_fb (a : Word) : (s.setPc a).fb = s.fb := rfl
@[simp] theorem State.setPc_keys (a : Word) : (s.setPc a).keys = s.keys := rfl
@[simp] theorem State.setPc_faultCode (a : Word) : (s.setPc a).faultCode = s.faultCode := rfl
@[simp] theorem State.setPc_faultPc (a : Word) : (s.setPc a).faultPc = s.faultPc := rfl
@[simp] theorem State.setPc_randDraws (a : Word) : (s.setPc a).randDraws = s.randDraws := rfl
@[simp] theorem State.setPc_params (a : Word) : (s.setPc a).params = s.params := rfl
@[simp] theorem State.setPc_byte (a : Word) (c : Nat) : (s.setPc a).byte c = s.byte c := rfl
@[simp] theorem State.setPc_v (a : Word) (r : Reg) : (s.setPc a).v r = s.v r := rfl

/-! ### setDt -/

@[simp] theorem State.setDt_regs (b : Byte) : (s.setDt b).regs = s.regs := rfl
@[simp] theorem State.setDt_i (b : Byte) : (s.setDt b).i = s.i := rfl
@[simp] theorem State.setDt_pc (b : Byte) : (s.setDt b).pc = s.pc := rfl
@[simp] theorem State.setDt_sp (b : Byte) : (s.setDt b).sp = s.sp := rfl
@[simp] theorem State.setDt_stack (b : Byte) : (s.setDt b).stack = s.stack := rfl
@[simp] theorem State.setDt_dt (b : Byte) : (s.setDt b).dt = b := rfl
@[simp] theorem State.setDt_st (b : Byte) : (s.setDt b).st = s.st := rfl
@[simp] theorem State.setDt_ir (b : Byte) : (s.setDt b).ir = s.ir := rfl
@[simp] theorem State.setDt_mem (b : Byte) : (s.setDt b).mem = s.mem := rfl
@[simp] theorem State.setDt_fb (b : Byte) : (s.setDt b).fb = s.fb := rfl
@[simp] theorem State.setDt_keys (b : Byte) : (s.setDt b).keys = s.keys := rfl
@[simp] theorem State.setDt_faultCode (b : Byte) : (s.setDt b).faultCode = s.faultCode := rfl
@[simp] theorem State.setDt_faultPc (b : Byte) : (s.setDt b).faultPc = s.faultPc := rfl
@[simp] theorem State.setDt_randDraws (b : Byte) : (s.setDt b).randDraws = s.randDraws := rfl
@[simp] theorem State.setDt_params (b : Byte) : (s.setDt b).params = s.params := rfl
@[simp] theorem State.setDt_byte (b : Byte) (c : Nat) : (s.setDt b).byte c = s.byte c := rfl
@[simp] theorem State.setDt_v (b : Byte) (r : Reg) : (s.setDt b).v r = s.v r := rfl

/-! ### setSt -/

@[simp] theorem State.setSt_regs (b : Byte) : (s.setSt b).regs = s.regs := rfl
@[simp] theorem State.setSt_i (b : Byte) : (s.setSt b).i = s.i := rfl
@[simp] theorem State.setSt_pc (b : Byte) : (s.setSt b).pc = s.pc := rfl
@[simp] theorem State.setSt_sp (b : Byte) : (s.setSt b).sp = s.sp := rfl
@[simp] theorem State.setSt_stack (b : Byte) : (s.setSt b).stack = s.stack := rfl
@[simp] theorem State.setSt_dt (b : Byte) : (s.setSt b).dt = s.dt := rfl
@[simp] theorem State.setSt_st (b : Byte) : (s.setSt b).st = b := rfl
@[simp] theorem State.setSt_ir (b : Byte) : (s.setSt b).ir = s.ir := rfl
@[simp] theorem State.setSt_mem (b : Byte) : (s.setSt b).mem = s.mem := rfl
@[simp] theorem State.setSt_fb (b : Byte) : (s.setSt b).fb = s.fb := rfl
@[simp] theorem State.setSt_keys (b : Byte) : (s.setSt b).keys = s.keys := rfl
@[simp] theorem State.setSt_faultCode (b : Byte) : (s.setSt b).faultCode = s.faultCode := rfl
@[simp] theorem State.setSt_faultPc (b : Byte) : (s.setSt b).faultPc = s.faultPc := rfl
@[simp] theorem State.setSt_randDraws (b : Byte) : (s.setSt b).randDraws = s.randDraws := rfl
@[simp] theorem State.setSt_params (b : Byte) : (s.setSt b).params = s.params := rfl
@[simp] theorem State.setSt_byte (b : Byte) (c : Nat) : (s.setSt b).byte c = s.byte c := rfl
@[simp] theorem State.setSt_v (b : Byte) (r : Reg) : (s.setSt b).v r = s.v r := rfl

/-! ### setFb -/

@[simp] theorem State.setFb_regs (f : Framebuffer) : (s.setFb f).regs = s.regs := rfl
@[simp] theorem State.setFb_i (f : Framebuffer) : (s.setFb f).i = s.i := rfl
@[simp] theorem State.setFb_pc (f : Framebuffer) : (s.setFb f).pc = s.pc := rfl
@[simp] theorem State.setFb_sp (f : Framebuffer) : (s.setFb f).sp = s.sp := rfl
@[simp] theorem State.setFb_stack (f : Framebuffer) : (s.setFb f).stack = s.stack := rfl
@[simp] theorem State.setFb_dt (f : Framebuffer) : (s.setFb f).dt = s.dt := rfl
@[simp] theorem State.setFb_st (f : Framebuffer) : (s.setFb f).st = s.st := rfl
@[simp] theorem State.setFb_ir (f : Framebuffer) : (s.setFb f).ir = s.ir := rfl
@[simp] theorem State.setFb_mem (f : Framebuffer) : (s.setFb f).mem = s.mem := rfl
@[simp] theorem State.setFb_fb (f : Framebuffer) : (s.setFb f).fb = f := rfl
@[simp] theorem State.setFb_keys (f : Framebuffer) : (s.setFb f).keys = s.keys := rfl
@[simp] theorem State.setFb_faultCode (f : Framebuffer) : (s.setFb f).faultCode = s.faultCode := rfl
@[simp] theorem State.setFb_faultPc (f : Framebuffer) : (s.setFb f).faultPc = s.faultPc := rfl
@[simp] theorem State.setFb_randDraws (f : Framebuffer) : (s.setFb f).randDraws = s.randDraws := rfl
@[simp] theorem State.setFb_params (f : Framebuffer) : (s.setFb f).params = s.params := rfl
@[simp] theorem State.setFb_byte (f : Framebuffer) (c : Nat) : (s.setFb f).byte c = s.byte c := rfl
@[simp] theorem State.setFb_v (f : Framebuffer) (r : Reg) : (s.setFb f).v r = s.v r := rfl

/-! ### setByte -/

@[simp] theorem State.setByte_regs (a : Nat) (b : Byte) : (s.setByte a b).regs = s.regs := rfl
@[simp] theorem State.setByte_i (a : Nat) (b : Byte) : (s.setByte a b).i = s.i := rfl
@[simp] theorem State.setByte_pc (a : Nat) (b : Byte) : (s.setByte a b).pc = s.pc := rfl
@[simp] theorem State.setByte_sp (a : Nat) (b : Byte) : (s.setByte a b).sp = s.sp := rfl
@[simp] theorem State.setByte_stack (a : Nat) (b : Byte) : (s.setByte a b).stack = s.stack := rfl
@[simp] theorem State.setByte_dt (a : Nat) (b : Byte) : (s.setByte a b).dt = s.dt := rfl
@[simp] theorem State.setByte_st (a : Nat) (b : Byte) : (s.setByte a b).st = s.st := rfl
@[simp] theorem State.setByte_ir (a : Nat) (b : Byte) : (s.setByte a b).ir = s.ir := rfl
@[simp] theorem State.setByte_mem (a : Nat) (b : Byte) : (s.setByte a b).mem = Memory.write s.params.font s.mem a b := rfl
@[simp] theorem State.setByte_fb (a : Nat) (b : Byte) : (s.setByte a b).fb = s.fb := rfl
@[simp] theorem State.setByte_keys (a : Nat) (b : Byte) : (s.setByte a b).keys = s.keys := rfl
@[simp] theorem State.setByte_faultCode (a : Nat) (b : Byte) : (s.setByte a b).faultCode = s.faultCode := rfl
@[simp] theorem State.setByte_faultPc (a : Nat) (b : Byte) : (s.setByte a b).faultPc = s.faultPc := rfl
@[simp] theorem State.setByte_randDraws (a : Nat) (b : Byte) : (s.setByte a b).randDraws = s.randDraws := rfl
@[simp] theorem State.setByte_params (a : Nat) (b : Byte) : (s.setByte a b).params = s.params := rfl
@[simp] theorem State.setByte_v (a : Nat) (b : Byte) (r : Reg) : (s.setByte a b).v r = s.v r := rfl

/-! ### setFlag -/

@[simp] theorem State.setFlag_regs (b : Bool) : (s.setFlag b).regs = s.regs.set vf.val (flagByte b) := rfl
@[simp] theorem State.setFlag_i (b : Bool) : (s.setFlag b).i = s.i := rfl
@[simp] theorem State.setFlag_pc (b : Bool) : (s.setFlag b).pc = s.pc := rfl
@[simp] theorem State.setFlag_sp (b : Bool) : (s.setFlag b).sp = s.sp := rfl
@[simp] theorem State.setFlag_stack (b : Bool) : (s.setFlag b).stack = s.stack := rfl
@[simp] theorem State.setFlag_dt (b : Bool) : (s.setFlag b).dt = s.dt := rfl
@[simp] theorem State.setFlag_st (b : Bool) : (s.setFlag b).st = s.st := rfl
@[simp] theorem State.setFlag_ir (b : Bool) : (s.setFlag b).ir = s.ir := rfl
@[simp] theorem State.setFlag_mem (b : Bool) : (s.setFlag b).mem = s.mem := rfl
@[simp] theorem State.setFlag_fb (b : Bool) : (s.setFlag b).fb = s.fb := rfl
@[simp] theorem State.setFlag_keys (b : Bool) : (s.setFlag b).keys = s.keys := rfl
@[simp] theorem State.setFlag_faultCode (b : Bool) : (s.setFlag b).faultCode = s.faultCode := rfl
@[simp] theorem State.setFlag_faultPc (b : Bool) : (s.setFlag b).faultPc = s.faultPc := rfl
@[simp] theorem State.setFlag_randDraws (b : Bool) : (s.setFlag b).randDraws = s.randDraws := rfl
@[simp] theorem State.setFlag_params (b : Bool) : (s.setFlag b).params = s.params := rfl
@[simp] theorem State.setFlag_byte (b : Bool) (c : Nat) : (s.setFlag b).byte c = s.byte c := rfl

/-! ### loadV -/

@[simp] theorem State.loadV_i (x : Reg) (a : Nat) : (s.loadV x a).i = s.i := rfl
@[simp] theorem State.loadV_pc (x : Reg) (a : Nat) : (s.loadV x a).pc = s.pc := rfl
@[simp] theorem State.loadV_sp (x : Reg) (a : Nat) : (s.loadV x a).sp = s.sp := rfl
@[simp] theorem State.loadV_stack (x : Reg) (a : Nat) : (s.loadV x a).stack = s.stack := rfl
@[simp] theorem State.loadV_dt (x : Reg) (a : Nat) : (s.loadV x a).dt = s.dt := rfl
@[simp] theorem State.loadV_st (x : Reg) (a : Nat) : (s.loadV x a).st = s.st := rfl
@[simp] theorem State.loadV_ir (x : Reg) (a : Nat) : (s.loadV x a).ir = s.ir := rfl
@[simp] theorem State.loadV_mem (x : Reg) (a : Nat) : (s.loadV x a).mem = s.mem := rfl
@[simp] theorem State.loadV_fb (x : Reg) (a : Nat) : (s.loadV x a).fb = s.fb := rfl
@[simp] theorem State.loadV_keys (x : Reg) (a : Nat) : (s.loadV x a).keys = s.keys := rfl
@[simp] theorem State.loadV_faultCode (x : Reg) (a : Nat) : (s.loadV x a).faultCode = s.faultCode := rfl
@[simp] theorem State.loadV_faultPc (x : Reg) (a : Nat) : (s.loadV x a).faultPc = s.faultPc := rfl
@[simp] theorem State.loadV_randDraws (x : Reg) (a : Nat) : (s.loadV x a).randDraws = s.randDraws := rfl
@[simp] theorem State.loadV_params (x : Reg) (a : Nat) : (s.loadV x a).params = s.params := rfl
@[simp] theorem State.loadV_byte (x : Reg) (a : Nat) (c : Nat) : (s.loadV x a).byte c = s.byte c := rfl

/-! ### drawn -/

@[simp] theorem State.drawn_regs : (s.drawn).regs = s.regs := rfl
@[simp] theorem State.drawn_i : (s.drawn).i = s.i := rfl
@[simp] theorem State.drawn_pc : (s.drawn).pc = s.pc := rfl
@[simp] theorem State.drawn_sp : (s.drawn).sp = s.sp := rfl
@[simp] theorem State.drawn_stack : (s.drawn).stack = s.stack := rfl
@[simp] theorem State.drawn_dt : (s.drawn).dt = s.dt := rfl
@[simp] theorem State.drawn_st : (s.drawn).st = s.st := rfl
@[simp] theorem State.drawn_ir : (s.drawn).ir = s.ir := rfl
@[simp] theorem State.drawn_mem : (s.drawn).mem = s.mem := rfl
@[simp] theorem State.drawn_fb : (s.drawn).fb = s.fb := rfl
@[simp] theorem State.drawn_keys : (s.drawn).keys = s.keys := rfl
@[simp] theorem State.drawn_faultCode : (s.drawn).faultCode = s.faultCode := rfl
@[simp] theorem State.drawn_faultPc : (s.drawn).faultPc = s.faultPc := rfl
@[simp] theorem State.drawn_randDraws : (s.drawn).randDraws = s.randDraws + 1 := rfl
@[simp] theorem State.drawn_params : (s.drawn).params = s.params := rfl
@[simp] theorem State.drawn_byte (c : Nat) : (s.drawn).byte c = s.byte c := rfl
@[simp] theorem State.drawn_v (r : Reg) : (s.drawn).v r = s.v r := rfl

/-! ### drop -/

@[simp] theorem State.drop_regs : (s.drop).regs = s.regs := rfl
@[simp] theorem State.drop_i : (s.drop).i = s.i := rfl
@[simp] theorem State.drop_pc : (s.drop).pc = s.pc := rfl
@[simp] theorem State.drop_stack : (s.drop).stack = s.stack := rfl
@[simp] theorem State.drop_dt : (s.drop).dt = s.dt := rfl
@[simp] theorem State.drop_st : (s.drop).st = s.st := rfl
@[simp] theorem State.drop_ir : (s.drop).ir = s.ir := rfl
@[simp] theorem State.drop_mem : (s.drop).mem = s.mem := rfl
@[simp] theorem State.drop_fb : (s.drop).fb = s.fb := rfl
@[simp] theorem State.drop_keys : (s.drop).keys = s.keys := rfl
@[simp] theorem State.drop_faultCode : (s.drop).faultCode = s.faultCode := rfl
@[simp] theorem State.drop_faultPc : (s.drop).faultPc = s.faultPc := rfl
@[simp] theorem State.drop_randDraws : (s.drop).randDraws = s.randDraws := rfl
@[simp] theorem State.drop_params : (s.drop).params = s.params := rfl
@[simp] theorem State.drop_byte (c : Nat) : (s.drop).byte c = s.byte c := rfl
@[simp] theorem State.drop_v (r : Reg) : (s.drop).v r = s.v r := rfl

/-! ### push -/

@[simp] theorem State.push_regs (w : Word) (h : s.sp.val < 16) : (s.push w h).regs = s.regs := rfl
@[simp] theorem State.push_i (w : Word) (h : s.sp.val < 16) : (s.push w h).i = s.i := rfl
@[simp] theorem State.push_pc (w : Word) (h : s.sp.val < 16) : (s.push w h).pc = s.pc := rfl
@[simp] theorem State.push_sp (w : Word) (h : s.sp.val < 16) : (s.push w h).sp = ⟨s.sp.val + 1, by omega⟩ := rfl
@[simp] theorem State.push_stack (w : Word) (h : s.sp.val < 16) : (s.push w h).stack = s.stack.set s.sp.val w := rfl
@[simp] theorem State.push_dt (w : Word) (h : s.sp.val < 16) : (s.push w h).dt = s.dt := rfl
@[simp] theorem State.push_st (w : Word) (h : s.sp.val < 16) : (s.push w h).st = s.st := rfl
@[simp] theorem State.push_ir (w : Word) (h : s.sp.val < 16) : (s.push w h).ir = s.ir := rfl
@[simp] theorem State.push_mem (w : Word) (h : s.sp.val < 16) : (s.push w h).mem = s.mem := rfl
@[simp] theorem State.push_fb (w : Word) (h : s.sp.val < 16) : (s.push w h).fb = s.fb := rfl
@[simp] theorem State.push_keys (w : Word) (h : s.sp.val < 16) : (s.push w h).keys = s.keys := rfl
@[simp] theorem State.push_faultCode (w : Word) (h : s.sp.val < 16) : (s.push w h).faultCode = s.faultCode := rfl
@[simp] theorem State.push_faultPc (w : Word) (h : s.sp.val < 16) : (s.push w h).faultPc = s.faultPc := rfl
@[simp] theorem State.push_randDraws (w : Word) (h : s.sp.val < 16) : (s.push w h).randDraws = s.randDraws := rfl
@[simp] theorem State.push_params (w : Word) (h : s.sp.val < 16) : (s.push w h).params = s.params := rfl
@[simp] theorem State.push_byte (w : Word) (h : s.sp.val < 16) (c : Nat) : (s.push w h).byte c = s.byte c := rfl
@[simp] theorem State.push_v (w : Word) (h : s.sp.val < 16) (r : Reg) : (s.push w h).v r = s.v r := rfl

/-! ### takeFault -/

@[simp] theorem State.takeFault_regs (c : FaultCode) (a : Word) : (s.takeFault c a).regs = s.regs := rfl
@[simp] theorem State.takeFault_i (c : FaultCode) (a : Word) : (s.takeFault c a).i = s.i := rfl
@[simp] theorem State.takeFault_pc (c : FaultCode) (a : Word) : (s.takeFault c a).pc = s.pc := rfl
@[simp] theorem State.takeFault_sp (c : FaultCode) (a : Word) : (s.takeFault c a).sp = s.sp := rfl
@[simp] theorem State.takeFault_stack (c : FaultCode) (a : Word) : (s.takeFault c a).stack = s.stack := rfl
@[simp] theorem State.takeFault_dt (c : FaultCode) (a : Word) : (s.takeFault c a).dt = s.dt := rfl
@[simp] theorem State.takeFault_st (c : FaultCode) (a : Word) : (s.takeFault c a).st = s.st := rfl
@[simp] theorem State.takeFault_ir (c : FaultCode) (a : Word) : (s.takeFault c a).ir = s.ir := rfl
@[simp] theorem State.takeFault_mem (c : FaultCode) (a : Word) : (s.takeFault c a).mem = s.mem := rfl
@[simp] theorem State.takeFault_fb (c : FaultCode) (a : Word) : (s.takeFault c a).fb = s.fb := rfl
@[simp] theorem State.takeFault_keys (c : FaultCode) (a : Word) : (s.takeFault c a).keys = s.keys := rfl
@[simp] theorem State.takeFault_faultCode (c : FaultCode) (a : Word) : (s.takeFault c a).faultCode = c := rfl
@[simp] theorem State.takeFault_faultPc (c : FaultCode) (a : Word) : (s.takeFault c a).faultPc = a := rfl
@[simp] theorem State.takeFault_randDraws (c : FaultCode) (a : Word) : (s.takeFault c a).randDraws = s.randDraws := rfl
@[simp] theorem State.takeFault_params (c : FaultCode) (a : Word) : (s.takeFault c a).params = s.params := rfl
@[simp] theorem State.takeFault_byte (c : FaultCode) (a : Word) (n : Nat) : (s.takeFault c a).byte n = s.byte n := rfl
@[simp] theorem State.takeFault_v (c : FaultCode) (a : Word) (r : Reg) : (s.takeFault c a).v r = s.v r := rfl

/-! ### raise -/

@[simp] theorem State.raise_regs (c : FaultCode) : (s.raise c).regs = s.regs := rfl
@[simp] theorem State.raise_i (c : FaultCode) : (s.raise c).i = s.i := rfl
@[simp] theorem State.raise_pc (c : FaultCode) : (s.raise c).pc = s.pc := rfl
@[simp] theorem State.raise_sp (c : FaultCode) : (s.raise c).sp = s.sp := rfl
@[simp] theorem State.raise_stack (c : FaultCode) : (s.raise c).stack = s.stack := rfl
@[simp] theorem State.raise_dt (c : FaultCode) : (s.raise c).dt = s.dt := rfl
@[simp] theorem State.raise_st (c : FaultCode) : (s.raise c).st = s.st := rfl
@[simp] theorem State.raise_ir (c : FaultCode) : (s.raise c).ir = s.ir := rfl
@[simp] theorem State.raise_mem (c : FaultCode) : (s.raise c).mem = s.mem := rfl
@[simp] theorem State.raise_fb (c : FaultCode) : (s.raise c).fb = s.fb := rfl
@[simp] theorem State.raise_keys (c : FaultCode) : (s.raise c).keys = s.keys := rfl
@[simp] theorem State.raise_faultCode (c : FaultCode) : (s.raise c).faultCode = c := rfl
@[simp] theorem State.raise_faultPc (c : FaultCode) : (s.raise c).faultPc = s.pc - 2 := rfl
@[simp] theorem State.raise_randDraws (c : FaultCode) : (s.raise c).randDraws = s.randDraws := rfl
@[simp] theorem State.raise_params (c : FaultCode) : (s.raise c).params = s.params := rfl
@[simp] theorem State.raise_byte (c : FaultCode) (n : Nat) : (s.raise c).byte n = s.byte n := rfl
@[simp] theorem State.raise_v (c : FaultCode) (r : Reg) : (s.raise c).v r = s.v r := rfl

/-! ### fetch -/

@[simp] theorem State.fetch_regs : (s.fetch).regs = s.regs := rfl
@[simp] theorem State.fetch_i : (s.fetch).i = s.i := rfl
@[simp] theorem State.fetch_pc : (s.fetch).pc = s.pc + 2 := rfl
@[simp] theorem State.fetch_sp : (s.fetch).sp = s.sp := rfl
@[simp] theorem State.fetch_stack : (s.fetch).stack = s.stack := rfl
@[simp] theorem State.fetch_dt : (s.fetch).dt = s.dt := rfl
@[simp] theorem State.fetch_st : (s.fetch).st = s.st := rfl
@[simp] theorem State.fetch_ir : (s.fetch).ir = s.fetchedWord := rfl
@[simp] theorem State.fetch_mem : (s.fetch).mem = s.mem := rfl
@[simp] theorem State.fetch_fb : (s.fetch).fb = s.fb := rfl
@[simp] theorem State.fetch_keys : (s.fetch).keys = s.keys := rfl
@[simp] theorem State.fetch_faultCode : (s.fetch).faultCode = s.faultCode := rfl
@[simp] theorem State.fetch_faultPc : (s.fetch).faultPc = s.faultPc := rfl
@[simp] theorem State.fetch_randDraws : (s.fetch).randDraws = s.randDraws := rfl
@[simp] theorem State.fetch_params : (s.fetch).params = s.params := rfl
@[simp] theorem State.fetch_byte (c : Nat) : (s.fetch).byte c = s.byte c := rfl
@[simp] theorem State.fetch_v (r : Reg) : (s.fetch).v r = s.v r := rfl

/-! ### tick -/

@[simp] theorem State.tick_regs : (s.tick).regs = s.regs := rfl
@[simp] theorem State.tick_i : (s.tick).i = s.i := rfl
@[simp] theorem State.tick_pc : (s.tick).pc = s.pc := rfl
@[simp] theorem State.tick_sp : (s.tick).sp = s.sp := rfl
@[simp] theorem State.tick_stack : (s.tick).stack = s.stack := rfl
@[simp] theorem State.tick_dt : (s.tick).dt = tickTimer s.dt := rfl
@[simp] theorem State.tick_st : (s.tick).st = tickTimer s.st := rfl
@[simp] theorem State.tick_ir : (s.tick).ir = s.ir := rfl
@[simp] theorem State.tick_mem : (s.tick).mem = s.mem := rfl
@[simp] theorem State.tick_fb : (s.tick).fb = s.fb := rfl
@[simp] theorem State.tick_keys : (s.tick).keys = s.keys := rfl
@[simp] theorem State.tick_faultCode : (s.tick).faultCode = s.faultCode := rfl
@[simp] theorem State.tick_faultPc : (s.tick).faultPc = s.faultPc := rfl
@[simp] theorem State.tick_randDraws : (s.tick).randDraws = s.randDraws := rfl
@[simp] theorem State.tick_params : (s.tick).params = s.params := rfl
@[simp] theorem State.tick_byte (c : Nat) : (s.tick).byte c = s.byte c := rfl
@[simp] theorem State.tick_v (r : Reg) : (s.tick).v r = s.v r := rfl

/-! ### skipIf -/

@[simp] theorem State.skipIf_pc (c : Bool) : (s.skipIf c).pc = if c then s.pc + 2 else s.pc := by cases c <;> rfl
@[simp] theorem State.skipIf_regs (c : Bool) : (s.skipIf c).regs = s.regs := by cases c <;> rfl
@[simp] theorem State.skipIf_i (c : Bool) : (s.skipIf c).i = s.i := by cases c <;> rfl
@[simp] theorem State.skipIf_sp (c : Bool) : (s.skipIf c).sp = s.sp := by cases c <;> rfl
@[simp] theorem State.skipIf_stack (c : Bool) : (s.skipIf c).stack = s.stack := by cases c <;> rfl
@[simp] theorem State.skipIf_dt (c : Bool) : (s.skipIf c).dt = s.dt := by cases c <;> rfl
@[simp] theorem State.skipIf_st (c : Bool) : (s.skipIf c).st = s.st := by cases c <;> rfl
@[simp] theorem State.skipIf_ir (c : Bool) : (s.skipIf c).ir = s.ir := by cases c <;> rfl
@[simp] theorem State.skipIf_mem (c : Bool) : (s.skipIf c).mem = s.mem := by cases c <;> rfl
@[simp] theorem State.skipIf_fb (c : Bool) : (s.skipIf c).fb = s.fb := by cases c <;> rfl
@[simp] theorem State.skipIf_keys (c : Bool) : (s.skipIf c).keys = s.keys := by cases c <;> rfl
@[simp] theorem State.skipIf_faultCode (c : Bool) : (s.skipIf c).faultCode = s.faultCode := by cases c <;> rfl
@[simp] theorem State.skipIf_faultPc (c : Bool) : (s.skipIf c).faultPc = s.faultPc := by cases c <;> rfl
@[simp] theorem State.skipIf_randDraws (c : Bool) : (s.skipIf c).randDraws = s.randDraws := by cases c <;> rfl
@[simp] theorem State.skipIf_params (c : Bool) : (s.skipIf c).params = s.params := by cases c <;> rfl
@[simp] theorem State.skipIf_byte (c : Bool) (a : Nat) : (s.skipIf c).byte a = s.byte a := by cases c <;> rfl
@[simp] theorem State.skipIf_v (c : Bool) (r : Reg) : (s.skipIf c).v r = s.v r := by cases c <;> rfl

end Sys2Proof.Machine
end

