-- ==== Sys2Proof/Laws/Ops.lean ====
section
/-! SUPPORT. What each shared operation can do, said once: register writes, flag writes, skips, block loads, the call
stack, the key an operand names, the key scan. -/

namespace Sys2Proof.Machine

/-- A register write changes its register and no other. -/
theorem State.v_setV (s : State) (x r : Reg) (b : Byte) : (s.setV x b).v r = if r = x then b else s.v r := by
  unfold State.v State.setV
  by_cases h : r = x
  · subst h; simp
  · have h' : x.val ≠ r.val := fun hv => h (Fin.ext hv).symm
    simp [h, Vector.getElem_set_ne _ _ h']

@[simp] theorem State.v_setV_self (s : State) (x : Reg) (b : Byte) : (s.setV x b).v x = b := by
  rw [State.v_setV, if_pos rfl]

/-- A flag write changes VF and no other register. -/
theorem State.v_setFlag (s : State) (r : Reg) (b : Bool) :
    (s.setFlag b).v r = if r = vf then flagByte b else s.v r :=
  State.v_setV s vf r (flagByte b)

/-- FX65's block load: the register k ≤ X holds the byte at `a + k`, the others stay. -/
theorem State.v_loadV (s : State) (x r : Reg) (a : Nat) :
    (s.loadV x a).v r = if r.val ≤ x.val then s.byte (a + r.val) else s.v r := by
  simp [State.v, State.loadV]

/-- Two register files that read alike are equal. -/
theorem regs_ext (s t : State) (h : ∀ r, t.v r = s.v r) : t.regs = s.regs := by
  apply Vector.ext
  intro k hk
  exact h ⟨k, hk⟩

/-- A skip moves PC by 2 or leaves it, and changes nothing else. -/
theorem State.skipIf_eq (s : State) (c : Bool) :
    s.skipIf c = { s with pc := if c then s.pc + 2 else s.pc } := by
  cases c <;> rfl

/-- `I + k` is inside memory. -/
theorem State.reaches_iff (s : State) (k : Nat) : s.reaches k = true ↔ s.i.toNat + k ≤ 0xFFF := by
  unfold State.reaches State.effAddr
  exact decide_eq_true_iff

/-- The range check of DXYN. -/
theorem State.spriteInRange_iff (s : State) (n : Nibble) :
    s.spriteInRange n = true ↔ n.toNat = 0 ∨ s.i.toNat + n.toNat ≤ 4096 := by
  simp only [State.spriteInRange, Bool.or_eq_true, beq_iff_eq, State.reaches_iff]
  omega

/-- The key an operand names, where it names one (R200). -/
theorem State.keyOf_of_lt (s : State) (x : Reg) (h : (s.v x).toNat < 16) :
    s.keyOf x = some (s.key ⟨(s.v x).toNat, h⟩) := by
  simp [State.keyOf, h]

/-- An operand above 15 names no key (R200). -/
theorem State.keyOf_of_ge (s : State) (x : Reg) (h : 15 < (s.v x).toNat) : s.keyOf x = none := by
  simp [State.keyOf, Nat.not_lt.mpr h]

/-- The key scan finds none exactly where no key is held (R204). -/
theorem State.lowestKey_none (s : State) : s.lowestKey = none ↔ ∀ k, s.key k = false := by
  simp [State.lowestKey]

/-- The bytes a block read gives. -/
theorem State.length_bytes (s : State) (a n : Nat) : (s.bytes a n).length = n := by simp [State.bytes]

theorem State.getD_bytes (s : State) (a n k : Nat) (h : k < n) : (s.bytes a n).getD k 0 = s.byte (a + k) := by
  simp [State.bytes, List.getD, h]

theorem State.length_regsUpTo (s : State) (x : Reg) : (s.regsUpTo x).length = x.val + 1 := by
  simp [State.regsUpTo]

theorem State.getD_regsUpTo (s : State) (x r : Reg) (h : r.val ≤ x.val) : (s.regsUpTo x).getD r.val 0 = s.v r := by
  have hr : r.val < x.val + 1 := by omega
  simp [State.regsUpTo, State.v, List.getD, hr]

end Sys2Proof.Machine
end

