-- ==== Sys2Proof/Laws/PerInstr.lean ====
section
/-! SUPPORT. Per instruction: the canonical word of every instruction carries the match of its row of
spec/opcode_table.json under the row's mask, and its operands fit their windows. -/

namespace Sys2Proof.Laws

/-- (mask, match) of the instruction's row of spec/opcode_table.json. -/
def tableRow : Instr → Word × Word
  | .cls => (0xF00F, 0x0000)
  | .ret => (0xF00F, 0x000E)
  | .jp _ => (0xF000, 0x1000)
  | .call _ => (0xF000, 0x2000)
  | .seImm _ _ => (0xF000, 0x3000)
  | .sneImm _ _ => (0xF000, 0x4000)
  | .seReg _ _ => (0xF000, 0x5000)
  | .ldImm _ _ => (0xF000, 0x6000)
  | .addImm _ _ => (0xF000, 0x7000)
  | .ldReg _ _ => (0xF00F, 0x8000)
  | .orReg _ _ => (0xF00F, 0x8001)
  | .andReg _ _ => (0xF00F, 0x8002)
  | .xorReg _ _ => (0xF00F, 0x8003)
  | .addReg _ _ => (0xF00F, 0x8004)
  | .subReg _ _ => (0xF00F, 0x8005)
  | .shr _ => (0xF00F, 0x8006)
  | .subnReg _ _ => (0xF00F, 0x8007)
  | .shl _ => (0xF00F, 0x800E)
  | .sneReg _ _ => (0xF000, 0x9000)
  | .ldI _ => (0xF000, 0xA000)
  | .jpV0 _ => (0xF000, 0xB000)
  | .rnd _ _ => (0xF000, 0xC000)
  | .drw _ _ _ => (0xF000, 0xD000)
  | .skp _ => (0xF00F, 0xE00E)
  | .sknp _ => (0xF00F, 0xE001)
  | .ldVxDt _ => (0xF0FF, 0xF007)
  | .ldVxK _ => (0xF0FF, 0xF00A)
  | .ldDtVx _ => (0xF0FF, 0xF015)
  | .ldStVx _ => (0xF0FF, 0xF018)
  | .addI _ => (0xF0FF, 0xF01E)
  | .ldF _ => (0xF0FF, 0xF029)
  | .ldB _ => (0xF0FF, 0xF033)
  | .storeRegs _ => (0xF0FF, 0xF055)
  | .loadRegs _ => (0xF0FF, 0xF065)

theorem packNNN_family (f : Nibble) (a : Addr) : packNNN f a &&& 0xF000 = f ++ (0 : BitVec 12) := by
  unfold packNNN; ext i hi; interval_cases i <;> simp <;> grind

theorem packXNN_family (f : Nibble) (x : Reg) (b : Byte) : packXNN f x b &&& 0xF000 = f ++ (0 : BitVec 12) := by
  unfold packXNN; ext i hi; interval_cases i <;> simp <;> grind

theorem packXNN_low (f : Nibble) (x : Reg) (b : Byte) :
    packXNN f x b &&& 0xF0FF = f ++ (0 : BitVec 4) ++ b := by
  unfold packXNN; ext i hi; interval_cases i <;> simp <;> grind

theorem packXNN_nibble (f : Nibble) (x : Reg) (b : Byte) :
    packXNN f x b &&& 0xF00F = f ++ (0 : BitVec 8) ++ b.extractLsb' 0 4 := by
  unfold packXNN; ext i hi; interval_cases i <;> simp <;> grind

theorem packXYN_family (f : Nibble) (x y : Reg) (n : Nibble) :
    packXYN f x y n &&& 0xF000 = f ++ (0 : BitVec 12) := by
  unfold packXYN; ext i hi; interval_cases i <;> simp <;> grind

theorem packXYN_nibble (f : Nibble) (x y : Reg) (n : Nibble) :
    packXYN f x y n &&& 0xF00F = f ++ (0 : BitVec 8) ++ n := by
  unfold packXYN; ext i hi; interval_cases i <;> simp <;> grind

theorem fits_x (x : Reg) : operandFits ⟨.x, x.val⟩ = true := decide_eq_true x.isLt
theorem fits_y (y : Reg) : operandFits ⟨.y, y.val⟩ = true := decide_eq_true y.isLt
theorem fits_n (n : Nibble) : operandFits ⟨.n, n.toNat⟩ = true := decide_eq_true n.isLt
theorem fits_nn (b : Byte) : operandFits ⟨.nn, b.toNat⟩ = true := decide_eq_true b.isLt
theorem fits_nnn (a : Addr) : operandFits ⟨.nnn, a.toNat⟩ = true := decide_eq_true a.isLt

/-- Operands carried at their windows' widths always fit. -/
theorem wellFormed_all (i : Instr) : wellFormed i = true := by
  cases i <;> simp [wellFormed, operandsOf, fits_x, fits_y, fits_n, fits_nn, fits_nnn]

namespace TableKey

/-- The instruction's canonical word matches its table row, and its operands fit. -/
def Statement (i : Instr) : Prop := encode i &&& (tableRow i).1 = (tableRow i).2 ∧ wellFormed i = true

theorem cls : Statement .cls :=
  ⟨rfl, wellFormed_all _⟩

theorem ret : Statement .ret :=
  ⟨rfl, wellFormed_all _⟩

theorem jp (nnn : Addr) : Statement (.jp nnn) :=
  ⟨(packNNN_family ..).trans rfl, wellFormed_all _⟩

theorem call (nnn : Addr) : Statement (.call nnn) :=
  ⟨(packNNN_family ..).trans rfl, wellFormed_all _⟩

theorem seImm (x : Reg) (nn : Byte) : Statement (.seImm x nn) :=
  ⟨(packXNN_family ..).trans rfl, wellFormed_all _⟩

theorem sneImm (x : Reg) (nn : Byte) : Statement (.sneImm x nn) :=
  ⟨(packXNN_family ..).trans rfl, wellFormed_all _⟩

theorem seReg (x : Reg) (y : Reg) : Statement (.seReg x y) :=
  ⟨(packXYN_family ..).trans rfl, wellFormed_all _⟩

theorem ldImm (x : Reg) (nn : Byte) : Statement (.ldImm x nn) :=
  ⟨(packXNN_family ..).trans rfl, wellFormed_all _⟩

theorem addImm (x : Reg) (nn : Byte) : Statement (.addImm x nn) :=
  ⟨(packXNN_family ..).trans rfl, wellFormed_all _⟩

theorem ldReg (x : Reg) (y : Reg) : Statement (.ldReg x y) :=
  ⟨(packXYN_nibble ..).trans rfl, wellFormed_all _⟩

theorem orReg (x : Reg) (y : Reg) : Statement (.orReg x y) :=
  ⟨(packXYN_nibble ..).trans rfl, wellFormed_all _⟩

theorem andReg (x : Reg) (y : Reg) : Statement (.andReg x y) :=
  ⟨(packXYN_nibble ..).trans rfl, wellFormed_all _⟩

theorem xorReg (x : Reg) (y : Reg) : Statement (.xorReg x y) :=
  ⟨(packXYN_nibble ..).trans rfl, wellFormed_all _⟩

theorem addReg (x : Reg) (y : Reg) : Statement (.addReg x y) :=
  ⟨(packXYN_nibble ..).trans rfl, wellFormed_all _⟩

theorem subReg (x : Reg) (y : Reg) : Statement (.subReg x y) :=
  ⟨(packXYN_nibble ..).trans rfl, wellFormed_all _⟩

theorem shr (x : Reg) : Statement (.shr x) :=
  ⟨(packXYN_nibble ..).trans rfl, wellFormed_all _⟩

theorem subnReg (x : Reg) (y : Reg) : Statement (.subnReg x y) :=
  ⟨(packXYN_nibble ..).trans rfl, wellFormed_all _⟩

theorem shl (x : Reg) : Statement (.shl x) :=
  ⟨(packXYN_nibble ..).trans rfl, wellFormed_all _⟩

theorem sneReg (x : Reg) (y : Reg) : Statement (.sneReg x y) :=
  ⟨(packXYN_family ..).trans rfl, wellFormed_all _⟩

theorem ldI (nnn : Addr) : Statement (.ldI nnn) :=
  ⟨(packNNN_family ..).trans rfl, wellFormed_all _⟩

theorem jpV0 (nnn : Addr) : Statement (.jpV0 nnn) :=
  ⟨(packNNN_family ..).trans rfl, wellFormed_all _⟩

theorem rnd (x : Reg) (nn : Byte) : Statement (.rnd x nn) :=
  ⟨(packXNN_family ..).trans rfl, wellFormed_all _⟩

theorem drw (x : Reg) (y : Reg) (n : Nibble) : Statement (.drw x y n) :=
  ⟨(packXYN_family ..).trans rfl, wellFormed_all _⟩

theorem skp (x : Reg) : Statement (.skp x) :=
  ⟨(packXNN_nibble ..).trans rfl, wellFormed_all _⟩

theorem sknp (x : Reg) : Statement (.sknp x) :=
  ⟨(packXNN_nibble ..).trans rfl, wellFormed_all _⟩

theorem ldVxDt (x : Reg) : Statement (.ldVxDt x) :=
  ⟨(packXNN_low ..).trans rfl, wellFormed_all _⟩

theorem ldVxK (x : Reg) : Statement (.ldVxK x) :=
  ⟨(packXNN_low ..).trans rfl, wellFormed_all _⟩

theorem ldDtVx (x : Reg) : Statement (.ldDtVx x) :=
  ⟨(packXNN_low ..).trans rfl, wellFormed_all _⟩

theorem ldStVx (x : Reg) : Statement (.ldStVx x) :=
  ⟨(packXNN_low ..).trans rfl, wellFormed_all _⟩

theorem addI (x : Reg) : Statement (.addI x) :=
  ⟨(packXNN_low ..).trans rfl, wellFormed_all _⟩

theorem ldF (x : Reg) : Statement (.ldF x) :=
  ⟨(packXNN_low ..).trans rfl, wellFormed_all _⟩

theorem ldB (x : Reg) : Statement (.ldB x) :=
  ⟨(packXNN_low ..).trans rfl, wellFormed_all _⟩

theorem storeRegs (x : Reg) : Statement (.storeRegs x) :=
  ⟨(packXNN_low ..).trans rfl, wellFormed_all _⟩

theorem loadRegs (x : Reg) : Statement (.loadRegs x) :=
  ⟨(packXNN_low ..).trans rfl, wellFormed_all _⟩

end TableKey

end Sys2Proof.Laws
end

