-- ==== Sys2Proof/Laws/Step.lean ====
section
/-! SUPPORT. What one STEP can do, said once, and what a placed word makes the next STEP fetch. -/

namespace Sys2Proof.Machine

@[simp] theorem finishCycle_next (s : State) : finishCycle (.next s) = .next s.endCycle := rfl

/-- A faulted machine does nothing (R81). -/
theorem step_of_faulted (s : State) (h : s.faultCode ≠ .none) : step s = .next s := by
  simp [step, h]

/-- A PC above 0xFFE faults (R82). -/
theorem step_of_unfetchable (s : State) (h : s.faultCode = .none) (hp : s.canFetch = false) :
    step s = .next s.fetchFault := by
  simp [step, h, hp]

/-- A fetched word that decodes runs its handler on the state after Fetch (R84, R85). -/
theorem step_of_decoded (s : State) (i : Instr) (h : s.faultCode = .none) (hp : s.canFetch = true)
    (hd : decodeWord s.fetchedWord = .ok i) : step s = finishCycle (exec i s.fetch) := by
  simp [step, h, hp, executeIr, hd]

/-- A fetched word that selects no handler is a no-op cycle (R92). -/
theorem step_of_undefined (s : State) (r : Reject) (h : s.faultCode = .none) (hp : s.canFetch = true)
    (hd : decodeWord s.fetchedWord = .error r) : step s = .next s.fetch.tick := by
  simp [step, h, hp, executeIr, hd, execUndefined, State.endCycle]

/-- The cases of a STEP, all of them. -/
theorem step_cases (s : State) :
    (s.faultCode ≠ .none ∧ step s = .next s) ∨
    (s.faultCode = .none ∧ s.canFetch = false ∧ step s = .next s.fetchFault) ∨
    (∃ i, s.faultCode = .none ∧ s.canFetch = true ∧ decodeWord s.fetchedWord = .ok i ∧
      step s = finishCycle (exec i s.fetch)) ∨
    (∃ r, s.faultCode = .none ∧ s.canFetch = true ∧ decodeWord s.fetchedWord = .error r ∧
      step s = .next s.fetch.tick) := by
  by_cases h : s.faultCode = .none
  · cases hp : s.canFetch
    · exact .inr (.inl ⟨h, rfl, step_of_unfetchable s h hp⟩)
    · cases hd : decodeWord s.fetchedWord with
      | ok i => exact .inr (.inr (.inl ⟨i, h, rfl, rfl, step_of_decoded s i h hp hd⟩))
      | error r => exact .inr (.inr (.inr ⟨r, h, rfl, rfl, step_of_undefined s r h hp hd⟩))
  · exact .inl ⟨h, step_of_faulted s h⟩

/-- The end of a cycle that did not fault is the Tick, of one that faulted nothing. -/
theorem State.endCycle_eq (s : State) :
    s.endCycle = { s with
      dt := if s.faultCode = .none then tickTimer s.dt else s.dt
      st := if s.faultCode = .none then tickTimer s.st else s.st } := by
  unfold State.endCycle State.tick
  split <;> rfl

/-- `max(b − 1, 0)` (R240, R270). -/
theorem tickTimer_toNat (b : Byte) : (tickTimer b).toNat = b.toNat - 1 := by
  unfold tickTimer
  split
  · next h => simp [h]
  · next h =>
    have : b.toNat ≠ 0 := fun h0 => h (BitVec.eq_of_toNat_eq h0)
    have := b.isLt
    have h1 : (1 : Byte).toNat = 1 := rfl
    rw [BitVec.toNat_sub, h1]
    omega

/-- A word placed at PC is the word the next Fetch reads (R61, R83). -/
theorem State.fetchedWord_placeWord (s : State) (w : Word) : (s.placeWord w).fetchedWord = w := by
  have hpc : (s.placeWord w).pc = s.pc := by
    unfold State.placeWord; rw [State.setBytes_frame]
  unfold State.fetchedWord
  rw [hpc]
  unfold State.placeWord
  rw [State.byte_setBytes, State.byte_setBytes]
  simp

/-- The next STEP of a machine with a placed word fetches that word, whatever the machine's state was. -/
theorem State.withFetchWord_fetch (s : State) (w : Word) :
    (s.withFetchWord 16 w.toNat).faultCode = .none ∧ (s.withFetchWord 16 w.toNat).canFetch = true ∧
      (s.withFetchWord 16 w.toNat).fetchedWord = w := by
  have hw : BitVec.ofNat 16 (w.toNat % 2 ^ 16) = w := by
    rw [Nat.mod_eq_of_lt w.isLt]; simp
  have hf : ∀ t : State, (t.placeWord w).faultCode = t.faultCode ∧ (t.placeWord w).pc = t.pc := fun t => by
    unfold State.placeWord; rw [State.setBytes_frame]; exact ⟨rfl, rfl⟩
  unfold State.withFetchWord
  rw [hw]
  refine ⟨(hf _).1, ?_, State.fetchedWord_placeWord _ _⟩
  unfold State.canFetch
  rw [(hf _).2]
  unfold State.readyToFetch Config.progStart
  simp only [decide_eq_true_eq]
  split <;> simp_all

end Sys2Proof.Machine
end

