-- ==== Sys2Proof/Tests/Slice0.lean ====
section
/-! SUPPORT. The model's own tests. Expected results are those of spec/95_test_vectors.md (the vector's name stands at
each test) or are read off the encoding tables of spec/30_encoding.md R89 to R95. -/

namespace Sys2Proof.Tests

open Sys2Proof.Machine

/-! ## Well-formedness: one ill-formed operand for each window, refused -/

theorem test_wf_register_16 : operandFits ⟨.x, 16⟩ = false ∧ operandFits ⟨.x, 15⟩ = true := by decide
theorem test_wf_second_register_16 : operandFits ⟨.y, 16⟩ = false ∧ operandFits ⟨.y, 15⟩ = true := by decide
theorem test_wf_nibble_16 : operandFits ⟨.n, 16⟩ = false ∧ operandFits ⟨.n, 15⟩ = true := by decide
theorem test_wf_byte_256 : operandFits ⟨.nn, 256⟩ = false ∧ operandFits ⟨.nn, 255⟩ = true := by decide
theorem test_wf_addr_4096 : operandFits ⟨.nnn, 4096⟩ = false ∧ operandFits ⟨.nnn, 4095⟩ = true := by decide

/-! ## Decoding: words written out from the patterns of R95, one for every constructor -/

theorem test_decode_flow :
    decodeWord 0x00EE = .ok .ret ∧ decodeWord 0x1ABC = .ok (.jp 0xABC) ∧ decodeWord 0x2345 = .ok (.call 0x345) ∧
    decodeWord 0x3342 = .ok (.seImm 3 0x42) ∧ decodeWord 0x4A17 = .ok (.sneImm 10 0x17) ∧
    decodeWord 0x5120 = .ok (.seReg 1 2) ∧ decodeWord 0x9CD0 = .ok (.sneReg 12 13) ∧
    decodeWord 0xBFFE = .ok (.jpV0 0xFFE) := by decide

theorem test_decode_alu :
    decodeWord 0x6A2F = .ok (.ldImm 10 0x2F) ∧ decodeWord 0x7020 = .ok (.addImm 0 0x20) ∧
    decodeWord 0x8120 = .ok (.ldReg 1 2) ∧ decodeWord 0x8341 = .ok (.orReg 3 4) ∧
    decodeWord 0x8562 = .ok (.andReg 5 6) ∧ decodeWord 0x8783 = .ok (.xorReg 7 8) ∧
    decodeWord 0x89A4 = .ok (.addReg 9 10) ∧ decodeWord 0x8BC5 = .ok (.subReg 11 12) ∧
    decodeWord 0x8D06 = .ok (.shr 13) ∧ decodeWord 0x8EF7 = .ok (.subnReg 14 15) ∧
    decodeWord 0x810E = .ok (.shl 1) ∧ decodeWord 0xC30F = .ok (.rnd 3 0x0F) := by decide

theorem test_decode_index_display :
    decodeWord 0xA2F0 = .ok (.ldI 0x2F0) ∧ decodeWord 0xF21E = .ok (.addI 2) ∧ decodeWord 0xF329 = .ok (.ldF 3) ∧
    decodeWord 0xF533 = .ok (.ldB 5) ∧ decodeWord 0xF255 = .ok (.storeRegs 2) ∧
    decodeWord 0xF165 = .ok (.loadRegs 1) ∧ decodeWord 0x00E0 = .ok .cls ∧
    decodeWord 0xD12F = .ok (.drw 1 2 15) := by decide

theorem test_decode_keys_timers :
    decodeWord 0xE49E = .ok (.skp 4) ∧ decodeWord 0xE4A1 = .ok (.sknp 4) ∧ decodeWord 0xF307 = .ok (.ldVxDt 3) ∧
    decodeWord 0xFE0A = .ok (.ldVxK 14) ∧ decodeWord 0xF215 = .ok (.ldDtVx 2) ∧
    decodeWord 0xF218 = .ok (.ldStVx 2) := by decide

/-- R91: non-canonical words execute the handler the dispatch selects. -/
theorem test_decode_noncanonical :
    decodeWord 0x0000 = .ok .cls ∧ decodeWord 0x01E0 = .ok .cls ∧ decodeWord 0x012E = .ok .ret ∧
    decodeWord 0x5127 = .ok (.seReg 1 2) ∧ decodeWord 0x912F = .ok (.sneReg 1 2) ∧
    decodeWord 0xE1AE = .ok (.skp 1) ∧ decodeWord 0xE191 = .ok (.sknp 1) ∧
    decodeWord 0x8126 = .ok (.shr 1) := by decide

/-- R93 (vectors D1, D2): undefined words are rejected by the name of their family. -/
theorem test_decode_undefined :
    decodeWord 0x8008 = .error (.family8 8) ∧ decodeWord 0xF000 = .error (.familyF 0) ∧
    decodeWord 0xE000 = .error (.familyE 0) ∧ decodeWord 0x0123 = .error (.family0 3) ∧
    decodeWord 0x800F = .error (.family8 15) := by decide

/-- R61 (vector D11): the byte at the lower address is bits 15–8. -/
theorem test_decode_big_endian :
    decode [0x12, 0x34, 0x56] = .ok (.jp 0x234, [0x56]) ∧ decode [0x12] = .error .truncated ∧
    decodeTableWord 16 0x1234 = some (.jp 0x234) ∧ decodeTableWord 16 0x8008 = none := by decide

/-! ## One step on a small state -/

/-- The state after one STEP of `s` with the word `w` at PC. -/
def after (w : Nat) (s : State) : State :=
  match step (s.withFetchWord 16 w) with
  | .next t => t
  | .fault _ => s
  | .refused _ => s

/-- The reset state, with two registers set. -/
def two (x : Reg) (a : Byte) (y : Reg) (b : Byte) : State := (State.reset.setV x a).setV y b

/-- The reset state with I set. -/
def atI (a : Word) : State := State.reset.setI a

/-- The reset state with some keys held (bit k is key k). -/
def held (k : BitVec 16) (s : State) : State := hostKeyIn k s

/-- S1: any framebuffer gives all pixels off. -/
theorem test_cls : (after 0x00E0 (State.reset.setFb [0, 3, 70])).fb = [] := by decide
/-- D3: 0x0000 is CLS. -/
theorem test_cls_zero_word : (after 0x0000 (State.reset.setFb [2047])).fb = [] ∧ (after 0 State.reset).pc = 0x202 := by decide
/-- F4. -/
theorem test_ret : (after 0x00EE (State.reset.push 0x204 (by decide))).pc = 0x204 ∧
    (after 0x00EE (State.reset.push 0x204 (by decide))).sp = 0 := by decide
/-- F5. -/
theorem test_ret_underflow : (after 0x00EE State.reset).faultCode = .stackUnderflow ∧
    (after 0x00EE State.reset).faultPc = 0x200 := by decide
/-- T1. -/
theorem test_jp : (after 0x1ABC State.reset).pc = 0xABC := by decide
/-- F1. -/
theorem test_call : (after 0x2300 State.reset).stack[0] = 0x202 ∧ (after 0x2300 State.reset).sp = 1 ∧
    (after 0x2300 State.reset).pc = 0x300 := by decide
/-- F3, K15: the 17th call faults, nothing is pushed, no Tick. -/
theorem test_call_overflow : let t := after 0x2300 { State.reset with sp := 16, dt := 5 }
    t.faultCode = .stackOverflow ∧ t.faultPc = 0x200 ∧ t.sp = 16 ∧ t.dt = 5 := by decide
/-- F6, F7. -/
theorem test_se_imm : (after 0x3342 (State.reset.setV 3 0x42)).pc = 0x204 ∧
    (after 0x3342 (State.reset.setV 3 0x41)).pc = 0x202 := by decide
/-- F8, F9. -/
theorem test_sne_imm : (after 0x4342 (State.reset.setV 3 0x41)).pc = 0x204 ∧
    (after 0x4342 (State.reset.setV 3 0x42)).pc = 0x202 := by decide
/-- F10, F11. -/
theorem test_se_reg : (after 0x5120 (two 1 7 2 7)).pc = 0x204 ∧ (after 0x5120 (two 1 7 2 8)).pc = 0x202 := by decide
/-- D5. -/
theorem test_se_reg_noncanonical : (after 0x5127 (two 1 4 2 4)).pc = 0x204 := by decide
/-- F13, F14. -/
theorem test_sne_reg : (after 0x9120 (two 1 7 2 8)).pc = 0x204 ∧ (after 0x9110 (two 1 7 2 8)).pc = 0x202 := by decide
/-- F16. -/
theorem test_jp_v0 : (after 0xBFFF (State.reset.setV 0 0xFF)).pc = 0x10FE := by decide
/-- F17: V5 is not used. -/
theorem test_jp_v0_not_v5 : (after 0xB300 (State.reset.setV 5 0x10)).pc = 0x300 := by decide

/-- A1. -/
theorem test_ld_imm : (after 0x61AB State.reset).v 1 = 0xAB := by decide
/-- A2: wraps, VF unchanged. -/
theorem test_add_imm_wraps : (after 0x71FF (two 1 1 15 7)).v 1 = 0 ∧ (after 0x71FF (two 1 1 15 7)).v 15 = 7 := by decide
/-- A49. -/
theorem test_add_imm_vf : (after 0x7F01 (State.reset.setV 15 0xFF)).v 15 = 0 := by decide
/-- A4. -/
theorem test_ld_reg : (after 0x8120 (State.reset.setV 2 0x99)).v 1 = 0x99 := by decide
/-- A5. -/
theorem test_or : (after 0x8121 (two 1 0x0F 2 0xF0)).v 1 = 0xFF := by decide
/-- A6. -/
theorem test_and : (after 0x8122 (two 1 0x3C 2 0x0F)).v 1 = 0x0C := by decide
/-- A7, A8. -/
theorem test_xor : (after 0x8123 (two 1 0x3C 2 0x0F)).v 1 = 0x33 ∧ (after 0x8113 (two 1 0x5A 2 0)).v 1 = 0 := by decide
/-- A9 (T2), A13. -/
theorem test_add_reg : let t := after 0x8124 (two 1 200 2 100)
    t.v 1 = 44 ∧ t.v 15 = 1 ∧ (after 0x8124 (two 1 127 2 128)).v 15 = 0 := by decide
/-- A32, A41: VF as destination and as source. -/
theorem test_add_reg_vf : (after 0x8F24 (two 15 200 2 100)).v 15 = 44 ∧
    (let t := after 0x81F4 (two 1 200 15 100); t.v 1 = 44 ∧ t.v 15 = 1) := by decide
/-- A14 (T3), A16. -/
theorem test_sub : let t := after 0x8125 (two 1 10 2 20)
    t.v 1 = 246 ∧ t.v 15 = 0 ∧ (after 0x8125 (two 1 7 2 7)).v 15 = 0 := by decide
/-- A35, A43. -/
theorem test_sub_vf : (after 0x8F25 (two 15 20 2 10)).v 15 = 247 ∧
    (let t := after 0x81F5 (two 1 20 15 10); t.v 1 = 19 ∧ t.v 15 = 1) := by decide
/-- A19. -/
theorem test_shr : let t := after 0x8126 (two 1 5 2 0x77); t.v 1 = 2 ∧ t.v 15 = 1 ∧ t.v 2 = 0x77 := by decide
/-- A36. -/
theorem test_shr_vf : (after 0x8F06 (State.reset.setV 15 3)).v 15 = 0 := by decide
/-- A22, A24. -/
theorem test_subn : let t := after 0x8127 (two 1 10 2 20)
    t.v 1 = 10 ∧ t.v 15 = 1 ∧ (after 0x8127 (two 1 7 2 7)).v 15 = 0 := by decide
/-- A39, A44. -/
theorem test_subn_vf : (after 0x8F27 (two 15 10 2 20)).v 15 = 19 ∧
    (let t := after 0x81F7 (two 1 10 15 20); t.v 1 = 247 ∧ t.v 15 = 1) := by decide
/-- A26. -/
theorem test_shl : let t := after 0x812E (two 1 0x81 2 0x77); t.v 1 = 2 ∧ t.v 15 = 1 ∧ t.v 2 = 0x77 := by decide
/-- A37. -/
theorem test_shl_vf : (after 0x8F0E (State.reset.setV 15 0x81)).v 15 = 2 := by decide
/-- A29: with RandByte() = 0xA5. -/
theorem test_rnd : (rndWith 0xA5 3 0x0F State.reset).v 3 = 0x05 := by decide
/-- A30: NN = 0 gives 0 for every draw, and one byte is consumed. -/
theorem test_rnd_zero_mask : (after 0xC300 (State.reset.setV 3 9)).v 3 = 0 ∧
    (after 0xC3FF State.reset).randDraws = 1 := by
  refine ⟨?_, by decide⟩
  show Config.randByte 0 &&& 0 = 0
  exact BitVec.and_zero

/-- M1. -/
theorem test_ld_i : (after 0xA2F0 State.reset).i = 0x2F0 := by decide
/-- M2, M3. -/
theorem test_add_i : (after 0xF21E ((atI 0x0FFF).setV 2 2)).i = 0x1001 ∧
    (after 0xF21E ((atI 0xFFFF).setV 2 1)).i = 0 := by decide
/-- T4, M8: not masked. -/
theorem test_ld_f : (after 0xF329 (State.reset.setV 3 0xA)).i = 0x082 ∧
    (after 0xF329 (State.reset.setV 3 0xFF)).i = 0x54B := by decide
/-- M9, M13. -/
theorem test_ld_b : (after 0xF533 ((atI 0x300).setV 5 156)).bytes 0x300 3 = [1, 5, 6] ∧
    (after 0xF533 ((atI 0xFFD).setV 5 123)).bytes 0xFFD 3 = [1, 2, 3] := by decide
/-- M14. -/
theorem test_ld_b_fault : let t := after 0xF533 ((atI 0xFFE).setV 5 123)
    t.faultCode = .memOutOfRange ∧ t.faultPc = 0x200 ∧ t.byte 0xFFE = 0 := by decide
/-- M15, M22: the font is ordinary memory. -/
theorem test_store_regs : let t := after 0xF255 (((atI 0x050).setV 1 2).setV 2 3)
    t.bytes 0x050 4 = [0, 2, 3, 0x90] ∧ t.i = 0x050 := by decide
/-- M17. -/
theorem test_store_regs_fault : (after 0xFF55 (atI 0xFF1)).faultCode = .memOutOfRange := by decide
/-- M18. -/
theorem test_load_regs : let t := after 0xF165 ((atI 0x400).setBytes 0x400 [0xAA, 0xBB, 0xCC])
    t.v 0 = 0xAA ∧ t.v 1 = 0xBB ∧ t.v 2 = 0 ∧ t.i = 0x400 := by decide
/-- M19, M20. -/
theorem test_load_regs_vf_and_fault : (after 0xFF65 ((atI 0x400).setByte 0x40F 0x77)).v 15 = 0x77 ∧
    (after 0xF065 (atI 0x1000)).faultCode = .memOutOfRange := by decide

/-- S2, S3: glyph A at the origin, then again. -/
theorem test_drw_twice : let t := after 0xD125 (atI 0x082)
    t.fb = [0, 1, 2, 3, 64, 67, 128, 129, 130, 131, 192, 195, 256, 259] ∧ t.v 15 = 0 ∧
    (after 0xD125 t).fb = [] ∧ (after 0xD125 t).v 15 = 1 := by decide +kernel
/-- S5: the origin wraps, the body is clipped; S9: the range check; S14: Y = F reads VF first. -/
theorem test_drw_edges :
    (after 0xD011 (((atI 0x300).setByte 0x300 0xFF).setV 0 255 |>.setV 1 31)).fb = [31 * 64 + 63] ∧
    (after 0xD012 (atI 0xFFF)).faultCode = .memOutOfRange ∧
    (after 0xD010 (atI 0xFFFF)).faultCode = .none ∧
    (after 0xD0F1 (((atI 0x300).setByte 0x300 0x80).setV 0 2 |>.setV 15 5)).fb = [5 * 64 + 2] := by decide +kernel

/-- K1, K2. -/
theorem test_skp : (after 0xE49E (held 0x0020 (State.reset.setV 4 5))).pc = 0x204 ∧
    (after 0xE49E (State.reset.setV 4 5)).pc = 0x202 := by decide
/-- K5. -/
theorem test_skp_fault : let t := after 0xE49E (State.reset.setV 4 16)
    t.faultCode = .keyOutOfRange ∧ t.faultPc = 0x200 := by decide
/-- K3, K4. -/
theorem test_sknp : (after 0xE4A1 (State.reset.setV 4 5)).pc = 0x204 ∧
    (after 0xE4A1 (held 0x0020 (State.reset.setV 4 5))).pc = 0x202 := by decide
/-- K5. -/
theorem test_sknp_fault : (after 0xE4A1 (State.reset.setV 4 16)).faultCode = .keyOutOfRange := by decide
/-- K8. -/
theorem test_ld_vx_dt : let t := after 0xF307 (State.reset.setDt 9); t.v 3 = 9 ∧ t.dt = 8 := by decide
/-- K6: no key, PC back at the instruction, the Tick runs. -/
theorem test_ld_vx_k_waits : let t := after 0xF20A (State.reset.setDt 3); t.pc = 0x200 ∧ t.dt = 2 := by decide
/-- K7: the lowest held key. -/
theorem test_ld_vx_k : let t := after 0xF20A (held 0x0208 State.reset); t.v 2 = 3 ∧ t.pc = 0x202 := by decide
/-- K9, K10. -/
theorem test_ld_dt_vx : (after 0xF215 (State.reset.setV 2 2)).dt = 1 ∧ (after 0xF215 State.reset).dt = 0 := by decide
/-- K11, K12. -/
theorem test_ld_st_vx : let t := after 0xF218 (State.reset.setV 2 3)
    t.st = 2 ∧ tone t = true ∧ tone (after 0xF218 (State.reset.setV 2 1)) = false := by decide

/-! ## The cycle and the host's transactions -/

/-- D1, K14: an undefined word is a no-op that ticks. -/
theorem test_undefined : let t := after 0x8008 ((State.reset.setDt 255).setSt 1)
    t.pc = 0x202 ∧ t.ir = 0x8008 ∧ t.dt = 254 ∧ t.st = 0 := by decide
/-- D8: PC = 0xFFF cannot be fetched. -/
theorem test_fetch_fault : ∃ t, step { State.reset with pc := 0xFFF, dt := 4 } = .next t ∧
    t.faultCode = .fetchOutOfRange ∧ t.faultPc = 0xFFF ∧ t.pc = 0xFFF ∧ t.dt = 4 := ⟨_, rfl, by decide⟩
/-- D9: an odd PC fetches. -/
theorem test_odd_pc : (after 0x6007 { State.reset with pc := 0x201 }).v 0 = 7 := by decide
/-- H1: the glyph of 0 stands at 0x050, glyph F at 0x09B. -/
theorem test_reset_font : State.reset.bytes 0x050 5 = [0xF0, 0x90, 0x90, 0x90, 0xF0] ∧
    State.reset.bytes 0x09B 6 = [0xF0, 0x80, 0xF0, 0x80, 0x80, 0] := by decide
/-- P5's image of two bytes. -/
theorem test_load : (hostLoad [0x22, 0x00] State.reset).bytes 0x1FF 3 = [0, 0x22, 0] := by decide
/-- H3. -/
theorem test_load_too_large : (hostLoad (List.replicate 3585 1) State.reset).faultCode = .loadTooLarge := by
  unfold hostLoad; rw [List.length_replicate]; rfl

end Sys2Proof.Tests
end

