-- ==== Sys2Proof/Tests/Witnesses.lean ====
section
/-! SUPPORT. For every statement of Certificates/Slice0/Obligations.lean that has hypotheses, a concrete state and
operands that meet them together, one theorem `witness_<statement>` each (several where it has several clauses), at a
boundary of the clause's range where it has one. -/

namespace Sys2Proof.Tests

open Sys2Proof.Machine

/-! ## Encoding and decoding -/

/-- Both directions: 0x8126 is `SHR V1` and agrees with 0x8106 on the used bits; 0x8116 does too, 0x8206 does not. -/
theorem witness_WordsOfAnInstructionAgreeOnUsedBits :
    decodeWord 0x8126 = .ok (.shr 1) ∧ (0x8116 : Word) &&& usedBits (.shr 1) = encode (.shr 1) &&& usedBits (.shr 1) ∧
    decodeWord 0x8206 ≠ .ok (.shr 1) := by decide

/-- Each clause at an edge of its gaps, and a rejected word. -/
theorem witness_UndefinedWordsAreTheUnlistedKeys :
    (fieldFamily 0x0001 = 0x0 ∧ fieldN 0x0001 ∉ [0x0, 0xE]) ∧
    (fieldFamily 0x8008 = 0x8 ∧ fieldN 0x8008 ∉ [0x0, 0x1, 0x2, 0x3, 0x4, 0x5, 0x6, 0x7, 0xE]) ∧
    (fieldFamily 0xE00F = 0xE ∧ fieldN 0xE00F ∉ [0x1, 0xE]) ∧
    (fieldFamily 0xF066 = 0xF ∧ fieldNN 0xF066 ∉ [0x07, 0x0A, 0x15, 0x18, 0x1E, 0x29, 0x33, 0x55, 0x65]) ∧
    decodeWord 0xF066 = .error (.familyF 0x66) := by decide

/-! ## The cycle -/

/-- The reset state with a word at PC, and PC at the last address that can be fetched. -/
def atEnd (w : Nat) : State := ({ State.reset with pc := 0xFFE }).withFetchWord 16 w

theorem witness_StepRunsTheDecodedInstruction : let s := atEnd 0x8124
    s.faultCode = .none ∧ s.pc.toNat = 0xFFE ∧ wellFormed (.addReg 1 2) = true ∧
    decode [s.byte s.pc.toNat, s.byte (s.pc.toNat + 1)] = .ok (.addReg 1 2, []) := by decide

theorem witness_UndefinedWordIsATickedNoop : let s := atEnd 0x8008
    s.faultCode = .none ∧ s.pc.toNat ≤ 0xFFE ∧
    0x8008 = wordOfBytes (s.byte s.pc.toNat) (s.byte (s.pc.toNat + 1)) ∧
    decodeWord 0x8008 = .error (.family8 8) := by decide

theorem witness_IrHoldsTheFetchedWordBigEndian : let s := atEnd 0x1ABC
    s.faultCode = .none ∧ s.pc.toNat ≤ 0xFFE ∧ ∃ t, step s = .next t ∧ t.ir = 0x1ABC := ⟨rfl, by decide, _, rfl, rfl⟩

/-- The handler leaves DT at its largest value and ST at 1. -/
theorem witness_CycleEndsWithTheTick : let s := ((State.reset.setV 2 0xFF).setSt 1).withFetchWord 16 0xF215
    Executes s (.ldDtVx 2) ∧ ∃ u, exec (.ldDtVx 2)
      { s with ir := wordOfBytes (s.byte s.pc.toNat) (s.byte (s.pc.toNat + 1)), pc := s.pc + 2 } = .next u ∧
      u.faultCode = .none ∧ u.dt = 0xFF ∧ u.st = 1 := ⟨by unfold Executes; decide, _, rfl, by decide⟩

/-- The reset state with a recorded fault. -/
def faulted : State := State.reset.takeFault .stackUnderflow 0x200

theorem witness_FaultedMachineIsStuck : faulted.faultCode ≠ .none := by decide

theorem witness_UnfetchablePcFaults :
    ({ State.reset with pc := 0xFFF } : State).faultCode = .none ∧
    0xFFE < ({ State.reset with pc := 0xFFF } : State).pc.toNat := by decide

/-! ## Reset and the invariant -/

/-- The address clauses of reset memory at their edges: last zero, first and last font byte, next zero, last byte. -/
theorem witness_ResetValues : State.reset.bytes 0x04F 2 = [0, 0xF0] ∧ State.reset.bytes 0x09F 2 = [0x80, 0] ∧
    State.reset.byte 4095 = 0 := by decide

theorem witness_InvariantHoldsAtReset :
    0 < ({ Config.defaultParams with fbW := 1, fbH := 1 } : Params).fbW ∧
    0 < ({ Config.defaultParams with fbW := 1, fbH := 1 } : Params).fbH := by decide

theorem witness_StepKeepsTheInvariant : State.reset.Inv ∧ ∃ t, step State.reset = .next t ∧ t.pc = 0x202 :=
  ⟨by unfold State.Inv; decide, _, rfl, rfl⟩

/-- A state on the edge of the invariant: PC and a stack entry at their largest values. -/
theorem witness_StepKeepsTheInvariant_edge :
    let s := { State.reset with pc := 0x10FE, stack := Vector.replicate 16 0x1000, mem := [(4095, 1)], fb := [2047] }
    s.Inv ∧ ∃ t, step s = .next t ∧ t.faultCode = .fetchOutOfRange := ⟨by unfold State.Inv; decide, _, rfl, rfl⟩

theorem witness_HostOperationsKeepTheInvariant : State.reset.Inv := by unfold State.Inv; decide

/-- The two memories are written in different orders. -/
theorem witness_CanonicalMemoriesThatReadAlikeAreEqual :
    let f := Config.defaultParams.font
    let m := Memory.write f (Memory.write f [] 4095 1) 0x300 2
    Memory.wf f m ∧ Memory.wf f [(0x300, 2), (4095, 1)] ∧
    ∀ a, Memory.read f m a = Memory.read f [(0x300, 2), (4095, 1)] a := by
  refine ⟨by decide, by decide, fun a => ?_⟩
  rw [show Memory.write Config.defaultParams.font (Memory.write Config.defaultParams.font [] 4095 1) 0x300 2 =
    [(0x300, 2), (4095, 1)] by decide]

/-! ## Control transfer -/

theorem witness_ReturnPopsTheTopEntry :
    (State.reset.push 0x204 (by decide)).sp.val = (0 : Fin 16).val + 1 ∧
    ({ State.reset with sp := 16 } : State).sp.val = (15 : Fin 16).val + 1 ∧
    State.reset.sp.val = 0 ∧ fieldFamily 0x012E = 0x0 ∧ fieldN 0x012E = 0xE := by decide

theorem witness_JumpSetsPc : Executes (atEnd 0x1ABC) (.jp 0xABC) ∧ fieldFamily 0x1FFF = 0x1 := by unfold Executes; decide

theorem witness_CallPushesTheReturnAddress : State.reset.sp.val = (0 : Fin 16).val ∧
    ({ State.reset with sp := 15 } : State).sp.val = (15 : Fin 16).val ∧
    ({ State.reset with sp := 16 } : State).sp.val = 16 ∧ (0 : Fin 16) ≠ 15 ∧ fieldFamily 0x2300 = 0x2 := by decide

theorem witness_SkipsCompareWithImmediate : fieldFamily 0x3342 = 0x3 ∧ fieldFamily 0x4342 = 0x4 ∧
    (State.reset.setV 3 0x42).v 3 = 0x42 ∧ (State.reset.setV 3 0x41).v 3 ≠ 0x42 := by decide

theorem witness_SkipsCompareRegisters : fieldFamily 0x5127 = 0x5 ∧ fieldFamily 0x9120 = 0x9 ∧
    (two 1 7 2 7).v 1 = (two 1 7 2 7).v 2 ∧ (two 1 7 2 8).v 1 ≠ (two 1 7 2 8).v 2 := by decide

/-- With 15 entries held the call is the last that fits; the subroutine changes a register. -/
theorem witness_ReturnAfterCallComesBack : let s := { State.reset with sp := 15 }
    s.sp.val < 16 ∧ ∃ t, exec (.call 0x300) s = .next t ∧ ∃ u : State, u ≠ t ∧ u.sp = t.sp ∧ u.stack = t.stack :=
  ⟨by decide, _, rfl, State.setV { State.reset with sp := 16, stack := State.reset.stack.set 15 0x200 } 3 9, by decide⟩

/-! ## Register loads and ALU -/

theorem witness_RegisterLoads : fieldFamily 0x6A2F = 0x6 ∧ fieldFamily 0x8120 = 0x8 ∧ fieldN 0x8120 = 0x0 := by decide

theorem witness_AddImmediateWraps : fieldFamily 0x7020 = 0x7 := by decide

theorem witness_BitwiseOperations : fieldFamily 0x8121 = 0x8 ∧ fieldN 0x8121 = 0x1 ∧ fieldN 0x8122 = 0x2 ∧
    fieldN 0x8123 = 0x3 := by decide

/-- The two sides of the carry: 255 and 256. -/
theorem witness_AddWithCarryOut : (1 : Reg) ≠ 15 ∧ ((two 1 255 2 0).v 1).toNat + ((two 1 255 2 0).v 2).toNat = 255 ∧
    255 < ((two 1 255 2 1).v 1).toNat + ((two 1 255 2 1).v 2).toNat := by decide

/-- VF as destination and as source, and equal operands on the flag's edge. -/
theorem witness_SubtractWithNoBorrow : (1 : Reg) ≠ 15 ∧ ¬ ((two 1 7 2 7).v 2).toNat < ((two 1 7 2 7).v 1).toNat ∧
    ((two 1 8 2 7).v 2).toNat < ((two 1 8 2 7).v 1).toNat := by decide

theorem witness_ReverseSubtractWithNoBorrow :
    (1 : Reg) ≠ 15 ∧ ¬ ((two 1 7 2 7).v 1).toNat < ((two 1 7 2 7).v 2).toNat ∧
    ((two 1 7 2 8).v 1).toNat < ((two 1 7 2 8).v 2).toNat := by decide

theorem witness_ShiftsByOne : (1 : Reg) ≠ 15 ∧ (15 : Reg) = 15 := by decide

theorem witness_SetIndex : fieldFamily 0xA2F0 = 0xA := by decide

/-! ## Index register and memory -/

theorem witness_BcdDigitsAreStored : (atI 0xFFD).i.toNat + 2 = 0xFFF := by decide

theorem witness_RegistersAreStored : (atI 0xFF0).i.toNat + (15 : Reg).val = 0xFFF ∧
    (3 : Reg).val ≤ (15 : Reg).val := by decide

theorem witness_RegistersAreLoaded : (atI 0xFFF).i.toNat + (0 : Reg).val = 0xFFF ∧
    (0 : Reg).val ≤ (0 : Reg).val := by decide

theorem witness_StoreThenLoadRestoresRegisters : (atI 0xFF0).i.toNat + (15 : Reg).val = 0xFFF ∧
    ∃ t, exec (.storeRegs 15) (atI 0xFF0) = .next t :=
  ⟨by decide, _, rfl⟩

/-- DXYN, FX33, FX55 and FX65, each at the first I that is out of range. -/
theorem witness_IndexedAccessOutOfRangeFaults :
    (Executes ((atI 0xFFF).withFetchWord 16 0xD012) (.drw 0 1 2) ∧ 0 < (2 : Nibble).toNat ∧
      4096 = ((atI 0xFFF).withFetchWord 16 0xD012).i.toNat + (2 : Nibble).toNat - 1) ∧
    (Executes ((atI 0xFFE).withFetchWord 16 0xF533) (.ldB 5) ∧
      4096 = ((atI 0xFFE).withFetchWord 16 0xF533).i.toNat + 2) ∧
    (Executes ((atI 0xFF1).withFetchWord 16 0xFF55) (.storeRegs 15) ∧
      4096 = ((atI 0xFF1).withFetchWord 16 0xFF55).i.toNat + (15 : Reg).val) ∧
    (Executes ((atI 0x1000).withFetchWord 16 0xF065) (.loadRegs 0) ∧
      4096 = ((atI 0x1000).withFetchWord 16 0xF065).i.toNat + (0 : Reg).val) := by unfold Executes; decide

theorem witness_IndexedAccessOutOfRangeFaults_index :
    (∃ t, exec (.ldI 0xFFF) State.reset = .next t) ∧ (∃ t, exec (.addI 2) (atI 0xFFFF) = .next t) ∧
    ∃ t, exec (.ldF 3) State.reset = .next t := ⟨⟨_, rfl⟩, ⟨_, rfl⟩, _, rfl⟩

/-! ## Display -/

theorem witness_ClearTurnsEveryPixelOff : fieldFamily 0x0000 = 0x0 ∧ fieldN 0x0000 = 0x0 := by decide

/-- No rows with I at its largest, and the last row at the last byte of memory. -/
theorem witness_DrawXorsTheClippedSprite :
    ((0 : Nibble).toNat = 0 ∧ (atI 0xFFFF).i = 0xFFFF) ∧ (atI 0xFF1).i.toNat + (15 : Nibble).toNat - 1 = 0xFFF ∧
    63 < State.reset.params.fbW ∧ 31 < State.reset.params.fbH := by decide

/-- A covered pixel that is on, at the last pixel of the grid. -/
theorem witness_DrawSetsVfOnCollision :
    let s := ((((atI 0xFFF).setByte 0xFFF 0x80).setV 0 63).setV 1 31).setFb [2047]
    s.i.toNat + (1 : Nibble).toNat - 1 = 0xFFF ∧ 63 < s.params.fbW ∧ 31 < s.params.fbH ∧
    Drawn s 0 1 1 63 31 = true ∧ s.pixel 63 31 = true := by decide

theorem witness_DrawSetsVfOnCollision_noRows : (0 : Nibble).toNat = 0 ∧ Drawn (atI 0xFFFF) 0 1 0 0 0 = false := by decide

/-- A covered pixel that is off. -/
theorem witness_DrawTwiceRestoresTheFramebuffer : let s := (atI 0xFFF).setByte 0xFFF 0x80
    (0 : Reg) ≠ 15 ∧ (1 : Reg) ≠ 15 ∧ s.i.toNat + (1 : Nibble).toNat - 1 = 0xFFF ∧
    Drawn s 0 1 1 0 0 = true ∧ s.pixel 0 0 = false := by decide

/-! ## Keypad and timers -/

theorem witness_KeySkips : ((State.reset.setV 4 15).v 4).toNat = (15 : Fin 16).val ∧
    (held 0x8000 (State.reset.setV 4 15)).key 15 = true ∧ (State.reset.setV 4 15).key 15 = false := by decide

theorem witness_KeyIndexOutOfRangeFaults : ((State.reset.setV 4 16).v 4).toNat = 16 ∧
    15 < ((State.reset.setV 4 16).v 4).toNat := by decide

/-- Keys 3 and 9 held; none held; the waiting cycle; the words. -/
theorem witness_KeyWaitTakesTheLowestHeldKey :
    ((held 0x0208 State.reset).key 3 = true ∧ ∀ j : Fin 16, j < 3 → (held 0x0208 State.reset).key j = false) ∧
    (∀ k : Fin 16, State.reset.key k = false) ∧
    (Executes (atEnd 0xF20A) (.ldVxK 2) ∧ ∀ k : Fin 16, (atEnd 0xF20A).key k = false) ∧
    fieldFamily 0xF20A = 0xF ∧ fieldNN 0xF20A = 0x0A := by unfold Executes; decide

theorem witness_TimerAccess : Executes (atEnd 0xF307) (.ldVxDt 3) ∧ Executes (atEnd 0xF215) (.ldDtVx 2) ∧
    Executes (atEnd 0xF218) (.ldStVx 2) ∧ fieldFamily 0xF218 = 0xF ∧ fieldNN 0xF307 = 0x07 ∧ fieldNN 0xF215 = 0x15 ∧
    fieldNN 0xF218 = 0x18 := by unfold Executes; decide

/-! ## Rules of the whole machine -/

/-- One state and instruction that meet the hypotheses, and one writer for each clause. -/
theorem witness_WritersOfEachPieceOfState :
    (∃ t, exec .cls (State.reset.setFb [0]) = .next t ∧ t.fb ≠ [0]) ∧
    (∃ t, exec (.ldI 1) State.reset = .next t ∧ t.i ≠ State.reset.i) ∧
    (∃ t, exec (.ldB 5) ((atI 0x300).setV 5 1) = .next t ∧ t.byte 0x302 ≠ ((atI 0x300).setV 5 1).byte 0x302) ∧
    (∃ t, exec (.ldDtVx 2) (State.reset.setV 2 1) = .next t ∧ t.dt ≠ (State.reset.setV 2 1).dt) ∧
    (∃ t, exec (.ldStVx 2) (State.reset.setV 2 1) = .next t ∧ t.st ≠ (State.reset.setV 2 1).st) ∧
    (∃ t, exec (.call 0x300) State.reset = .next t ∧ t.sp ≠ State.reset.sp) ∧
    ∃ t, exec (.rnd 3 0) State.reset = .next t ∧ t.randDraws ≠ State.reset.randDraws :=
  ⟨⟨_, rfl, by decide⟩, ⟨_, rfl, by decide⟩, ⟨_, rfl, by decide⟩, ⟨_, rfl, by decide⟩, ⟨_, rfl, by decide⟩,
    ⟨_, rfl, by decide⟩, _, rfl, by decide⟩

theorem witness_WritersOfGeneralRegisters :
    (∃ t, exec (.addReg 1 2) (two 1 200 2 100) = .next t ∧ t.v 15 ≠ (two 1 200 2 100).v 15) ∧
    ∃ t, exec (.loadRegs 15) ((atI 0x300).setByte 0x30F 7) = .next t ∧
      t.v 15 ≠ ((atI 0x300).setByte 0x30F 7).v 15 := ⟨⟨_, rfl, by decide⟩, _, rfl, by decide⟩

/-- Each of the four codes, at the first value that raises it. -/
theorem witness_OnlyTheListedConditionsFault :
    (∃ t, exec .ret State.reset = .next t ∧ t.faultCode ≠ State.reset.faultCode) ∧
    (∃ t, exec (.call 0x300) { State.reset with sp := 16 } = .next t ∧ t.faultCode ≠ .none) ∧
    (∃ t, exec (.drw 0 1 1) (atI 0x1000) = .next t ∧ t.faultCode ≠ (atI 0x1000).faultCode) ∧
    ∃ t, exec (.sknp 4) (State.reset.setV 4 16) = .next t ∧ t.faultCode ≠ (State.reset.setV 4 16).faultCode :=
  ⟨⟨_, rfl, by decide⟩, ⟨_, rfl, by decide⟩, ⟨_, rfl, by decide⟩, _, rfl, by decide⟩

/-- The two cases: PC cannot be fetched, and a handler faults. -/
theorem witness_FaultingCycleWritesOnlyTheRecord :
    (∃ t, step { State.reset with pc := 0xFFF } = .next t ∧ t.faultCode = .fetchOutOfRange) ∧
    (atEnd 0x00EE).faultCode = .none ∧ ∃ t, step (atEnd 0x00EE) = .next t ∧ t.faultCode = .stackUnderflow :=
  ⟨⟨_, rfl, rfl⟩, rfl, _, rfl, rfl⟩

theorem witness_OnlyResetLeavesTheFaultedState : faulted.faultCode ≠ .none ∧
    ∃ t, transact .reset faulted = .next t ∧ t.faultCode = .none := ⟨by decide, _, rfl, rfl⟩

theorem witness_StepKeepsParametersAndRecordedFaults :
    (∃ t, step State.reset = .next t) ∧ faulted.faultCode ≠ .none ∧ ∃ t, step faulted = .next t :=
  ⟨⟨_, rfl⟩, by decide, _, rfl⟩

/-! ## The host's transactions -/

/-- 3584 bytes fit and 3585 do not. -/
theorem witness_LoadCopiesTheImage : State.reset.faultCode = .none ∧ (List.replicate 3584 (1 : Byte)).length = 3584 ∧
    3584 < (List.replicate 3585 (1 : Byte)).length :=
  ⟨rfl, List.length_replicate, by rw [List.length_replicate]; omega⟩

theorem witness_KeyInputAndFramebufferOutput : 63 < State.reset.params.fbW ∧ 31 < State.reset.params.fbH := by decide

end Sys2Proof.Tests
end

/-! ## Proofs: the cycle of an undefined word (spec/30_encoding.md R92) -/

namespace Sys2Proof.Machine

/-- The cycle without a handler: Fetch writes IR and PC, the Tick writes the timers, and nothing else changes. -/
theorem State.tick_fetch_eq (s : State) :
    s.fetch.tick =
      { s with ir := s.fetchedWord, pc := s.pc + 2, dt := tickTimer s.dt, st := tickTimer s.st } := rfl

/-- Settles O6: the cycle of an undefined word is Fetch then the Tick (`step_of_undefined`), whose effect is read off
field by field. -/
theorem undefinedWordIsATickedNoop : Obligations.UndefinedWordIsATickedNoop := by
  intro s w r hfault hpc hword hundef
  have hfetched : s.fetchedWord = w := hword.symm
  have hstep : step s = .next s.fetch.tick :=
    step_of_undefined s r hfault (decide_eq_true hpc) (hfetched ▸ hundef)
  exact ⟨s.fetch.tick, hstep, hfetched, State.fetch_pc s, tickTimer_toNat s.dt, tickTimer_toNat s.st,
    State.tick_fetch_eq s, fun _ => rfl⟩

end Sys2Proof.Machine

/-! ## Proofs: control transfer (spec/40_flow.md R111 to R117) -/

namespace Sys2Proof

/-! ### Dispatch of the control-transfer families (spec/30_encoding.md R89, R90) -/

section Families

variable {w : Word}

theorem decodeWord_of_family0_nE (hf : fieldFamily w = 0x0) (hn : fieldN w = 0xE) : decodeWord w = .ok .ret := by
  simp [decodeWord, hf, decodeFamily0, hn]

theorem decodeWord_of_family1 (hf : fieldFamily w = 0x1) : decodeWord w = .ok (.jp (fieldNNN w)) := by
  simp [decodeWord, hf]

theorem decodeWord_of_family2 (hf : fieldFamily w = 0x2) : decodeWord w = .ok (.call (fieldNNN w)) := by
  simp [decodeWord, hf]

theorem decodeWord_of_family3 (hf : fieldFamily w = 0x3) :
    decodeWord w = .ok (.seImm (fieldX w) (fieldNN w)) := by
  simp [decodeWord, hf]

theorem decodeWord_of_family4 (hf : fieldFamily w = 0x4) :
    decodeWord w = .ok (.sneImm (fieldX w) (fieldNN w)) := by
  simp [decodeWord, hf]

theorem decodeWord_of_family5 (hf : fieldFamily w = 0x5) :
    decodeWord w = .ok (.seReg (fieldX w) (fieldY w)) := by
  simp [decodeWord, hf]

theorem decodeWord_of_family9 (hf : fieldFamily w = 0x9) :
    decodeWord w = .ok (.sneReg (fieldX w) (fieldY w)) := by
  simp [decodeWord, hf]

end Families

end Sys2Proof

namespace Sys2Proof.Machine

/-! ### The call stack (spec/10_state.md R29, R30) -/

theorem State.drop_sp_val (s : State) : s.drop.sp.val = s.sp.val - 1 := rfl

/-- The top entry under its own index, for any index that SP is one above. -/
theorem State.top_eq_stack (s : State) (h : 0 < s.sp.val) (k : Fin 16) (hk : s.sp.val = k.val + 1) :
    s.top h = s.stack[k.val] := by
  simp [State.top, hk]

theorem State.push_stack_at_sp (s : State) (w : Word) (h : s.sp.val < 16) :
    (s.push w h).stack[s.sp.val] = w := by
  simp

theorem State.push_stack_of_ne (s : State) (w : Word) (h : s.sp.val < 16) (j : Fin 16) (hj : j.val ≠ s.sp.val) :
    (s.push w h).stack[j.val] = s.stack[j.val] := by
  simp [Vector.getElem_set_ne _ _ hj.symm]

/-! ### The frame of jumps and skips -/

theorem State.onlyPc_setPc (s : State) (a : Word) : OnlyPc s (s.setPc a) := ⟨rfl, fun _ => rfl⟩

theorem State.onlyPc_skipIf (s : State) (c : Bool) : OnlyPc s (s.skipIf c) :=
  ⟨by rw [State.skipIf_pc]; exact State.skipIf_eq s c, State.skipIf_byte s c⟩

/-- A 12-bit address keeps its value as a PC (R94). -/
theorem addrWord_toNat (nnn : Addr) : (addrWord nnn).toNat = nnn.toNat :=
  BitVec.toNat_setWidth_of_le (by decide)

/-! ### The handlers, one equation per case -/

theorem exec_ret_of_pos (s : State) (h : 0 < s.sp.val) : exec .ret s = .next (s.drop.setPc (s.top h)) :=
  dif_pos h

theorem exec_ret_of_empty (s : State) (h : s.sp.val = 0) : exec .ret s = .next (s.raise .stackUnderflow) :=
  dif_neg (by omega)

theorem exec_jp (nnn : Addr) (s : State) : exec (.jp nnn) s = .next (s.setPc (addrWord nnn)) := rfl

theorem exec_call_of_lt (nnn : Addr) (s : State) (h : s.sp.val < 16) :
    exec (.call nnn) s = .next ((s.push s.pc h).setPc (addrWord nnn)) :=
  dif_pos h

theorem exec_call_of_full (nnn : Addr) (s : State) (h : s.sp.val = 16) :
    exec (.call nnn) s = .next (s.raise .stackOverflow) :=
  dif_neg (by omega)

theorem exec_seImm (x : Reg) (nn : Byte) (s : State) :
    exec (.seImm x nn) s = .next (s.skipIf (s.v x == nn)) := rfl

theorem exec_sneImm (x : Reg) (nn : Byte) (s : State) :
    exec (.sneImm x nn) s = .next (s.skipIf (s.v x != nn)) := rfl

theorem exec_seReg (x y : Reg) (s : State) : exec (.seReg x y) s = .next (s.skipIf (s.v x == s.v y)) := rfl

theorem exec_sneReg (x y : Reg) (s : State) : exec (.sneReg x y) s = .next (s.skipIf (s.v x != s.v y)) := rfl

/-! ### The cycle around a handler -/

/-- `Executes` in the terms of `step_of_decoded`: the cycle is the handler on the state after Fetch, then its end. -/
theorem step_of_executes {s : State} {i : Instr} (h : Executes s i) : step s = finishCycle (exec i s.fetch) := by
  obtain ⟨hfault, hpc, hdecode⟩ := h
  exact step_of_decoded s i hfault (decide_eq_true hpc) hdecode

/-- The end of a cycle leaves PC alone: the Tick writes timers only. -/
@[simp] theorem State.endCycle_pc (s : State) : s.endCycle.pc = s.pc := by
  rw [State.endCycle_eq]

/-! ### RET, JP and CALL -/

/-- Settles O17, by the two cases of the test on SP: `exec_ret_of_pos` and `exec_ret_of_empty`. -/
theorem returnPopsTheTopEntry : Obligations.ReturnPopsTheTopEntry := by
  refine ⟨fun s k hsp => ?_, fun s hsp => ?_, fun w hfamily hn => decodeWord_of_family0_nE hfamily hn⟩
  · have hpos : 0 < s.sp.val := by omega
    have hdrop : s.drop.sp.val = k.val := by rw [State.drop_sp_val, hsp, Nat.add_sub_cancel]
    exact ⟨s.drop.setPc (s.top hpos), exec_ret_of_pos s hpos, hdrop, State.top_eq_stack s hpos k hsp, rfl, rfl,
      fun _ => rfl⟩
  · exact ⟨s.raise .stackUnderflow, exec_ret_of_empty s hsp, State.raise_faultCode s _⟩

/-- Settles O18: the handler is one write of PC, and neither Fetch before it nor the end of the cycle after it
changes what PC holds in the end. -/
theorem jumpSetsPc : Obligations.JumpSetsPc := by
  refine ⟨fun nnn s => ?_, fun nnn s hexecutes => ?_, fun w hfamily => decodeWord_of_family1 hfamily⟩
  · exact ⟨s.setPc (addrWord nnn), exec_jp nnn s, addrWord_toNat nnn, State.onlyPc_setPc s _⟩
  · have hstep : step s = .next (s.fetch.setPc (addrWord nnn)).endCycle := by
      rw [step_of_executes hexecutes, exec_jp, finishCycle_next]
    refine ⟨_, hstep, ?_⟩
    rw [State.endCycle_pc, State.setPc_pc, addrWord_toNat]

/-- Settles O19, by the two cases of the test on SP: below 16 the push writes the entry at SP alone, at 16 the fault
record is all that changes. -/
theorem callPushesTheReturnAddress : Obligations.CallPushesTheReturnAddress := by
  refine ⟨fun nnn s k hsp => ?_, fun nnn s hsp => ?_, fun w hfamily => decodeWord_of_family2 hfamily⟩
  · have hlt : s.sp.val < 16 := by omega
    obtain rfl : k = ⟨s.sp.val, hlt⟩ := Fin.ext hsp.symm
    have hothers : ∀ j : Fin 16, j ≠ ⟨s.sp.val, hlt⟩ → (s.push s.pc hlt).stack[j.val] = s.stack[j.val] :=
      fun j hj => State.push_stack_of_ne s s.pc hlt j (Fin.val_ne_of_ne hj)
    exact ⟨(s.push s.pc hlt).setPc (addrWord nnn), exec_call_of_lt nnn s hlt, State.push_stack_at_sp s s.pc hlt, rfl,
      addrWord_toNat nnn, hothers, rfl, fun _ => rfl⟩
  · exact ⟨s.raise .stackOverflow, exec_call_of_full nnn s hsp, State.raise_faultCode s _, rfl, rfl⟩

/-! ### The skips -/

/-- What every skip instruction does: where its handler is `skipIf c` and `c` decides `p`, PC moves by 2 exactly where
`p` holds, and nothing else changes. -/
theorem skip_moves_pc_iff {s : State} {i : Instr} {c : Bool} {p : Prop} [Decidable p]
    (hexec : exec i s = .next (s.skipIf c)) (hc : c = true ↔ p) :
    ∃ t, exec i s = .next t ∧ t.pc = (if p then s.pc + 2 else s.pc) ∧ OnlyPc s t := by
  refine ⟨s.skipIf c, hexec, ?_, State.onlyPc_skipIf s c⟩
  rw [State.skipIf_pc]
  exact if_congr hc rfl rfl

/-- Settles O20: both handlers are skips (`skip_moves_pc_iff`), on equality and on inequality with the immediate. -/
theorem skipsCompareWithImmediate : Obligations.SkipsCompareWithImmediate := by
  refine ⟨fun x nn s => ⟨?_, ?_⟩, fun w => ⟨decodeWord_of_family3, decodeWord_of_family4⟩⟩
  · exact skip_moves_pc_iff (exec_seImm x nn s) beq_iff_eq
  · exact skip_moves_pc_iff (exec_sneImm x nn s) bne_iff_ne

/-- Settles O21: both handlers are skips (`skip_moves_pc_iff`), on equality and on inequality of the registers; the
decoder never reads the low nibble in these families. -/
theorem skipsCompareRegisters : Obligations.SkipsCompareRegisters := by
  refine ⟨fun x y s => ⟨?_, ?_⟩, fun w => ⟨decodeWord_of_family5, decodeWord_of_family9⟩⟩
  · exact skip_moves_pc_iff (exec_seReg x y s) beq_iff_eq
  · exact skip_moves_pc_iff (exec_sneReg x y s) bne_iff_ne

end Sys2Proof.Machine

/-! ## Proofs: register loads, ADD immediate and the bitwise operations (spec/41_alu.md R131 to R136) -/

namespace Sys2Proof

/-! ### Dispatch of families 0x6 and 0x7, and of family 0x8 by its low nibble (spec/30_encoding.md R89, R90) -/

section AluFamilies

variable {w : Word}

theorem decodeWord_of_family6 (hf : fieldFamily w = 0x6) :
    decodeWord w = .ok (.ldImm (fieldX w) (fieldNN w)) := by
  simp [decodeWord, hf]

theorem decodeWord_of_family7 (hf : fieldFamily w = 0x7) :
    decodeWord w = .ok (.addImm (fieldX w) (fieldNN w)) := by
  simp [decodeWord, hf]

theorem decodeWord_of_family8 (hf : fieldFamily w = 0x8) : decodeWord w = decodeFamily8 w := by
  simp [decodeWord, hf]

theorem decodeFamily8_n0 (hn : fieldN w = 0x0) : decodeFamily8 w = .ok (.ldReg (fieldX w) (fieldY w)) := by
  simp [decodeFamily8, hn]

theorem decodeFamily8_n1 (hn : fieldN w = 0x1) : decodeFamily8 w = .ok (.orReg (fieldX w) (fieldY w)) := by
  simp [decodeFamily8, hn]

theorem decodeFamily8_n2 (hn : fieldN w = 0x2) : decodeFamily8 w = .ok (.andReg (fieldX w) (fieldY w)) := by
  simp [decodeFamily8, hn]

theorem decodeFamily8_n3 (hn : fieldN w = 0x3) : decodeFamily8 w = .ok (.xorReg (fieldX w) (fieldY w)) := by
  simp [decodeFamily8, hn]

end AluFamilies

end Sys2Proof

namespace Sys2Proof.Machine

/-! ### The frame of a register write -/

theorem State.onlyRegs_setV (s : State) (x : Reg) (b : Byte) : OnlyRegs s (s.setV x b) := ⟨rfl, fun _ => rfl⟩

theorem State.otherRegsKept_setV (s : State) (x : Reg) (b : Byte) : OtherRegsKept (· = x) s (s.setV x b) :=
  fun r hr => by rw [State.v_setV, if_neg hr]

/-! ### The handlers, one equation each -/

theorem exec_ldImm (x : Reg) (nn : Byte) (s : State) : exec (.ldImm x nn) s = .next (s.setV x nn) := rfl

theorem exec_ldReg (x y : Reg) (s : State) : exec (.ldReg x y) s = .next (s.setV x (s.v y)) := rfl

/-- Reducing the exact sum to a byte is byte addition. -/
theorem ofNat_exactSum (a b : Byte) : BitVec.ofNat 8 (exactSum a b) = a + b := by
  rw [exactSum, BitVec.ofNat_add, BitVec.ofNat_toNat, BitVec.ofNat_toNat, BitVec.setWidth_eq, BitVec.setWidth_eq]

theorem exec_addImm (x : Reg) (nn : Byte) (s : State) : exec (.addImm x nn) s = .next (s.setV x (s.v x + nn)) := by
  rw [← ofNat_exactSum]
  rfl

theorem exec_orReg (x y : Reg) (s : State) : exec (.orReg x y) s = .next (s.setV x (s.v x ||| s.v y)) := rfl

theorem exec_andReg (x y : Reg) (s : State) : exec (.andReg x y) s = .next (s.setV x (s.v x &&& s.v y)) := rfl

theorem exec_xorReg (x y : Reg) (s : State) : exec (.xorReg x y) s = .next (s.setV x (s.v x ^^^ s.v y)) := rfl

/-! ### The obligations -/

/-- What every instruction whose handler is one register write does: V[X] holds the result, and no other register, VF
among them, and nothing else changes. -/
theorem setV_writes_only_its_register {s : State} {i : Instr} {x : Reg} {b : Byte}
    (hexec : exec i s = .next (s.setV x b)) :
    ∃ t, exec i s = .next t ∧ t.v x = b ∧ OtherRegsKept (· = x) s t ∧ OnlyRegs s t :=
  ⟨s.setV x b, hexec, State.v_setV_self s x b, State.otherRegsKept_setV s x b, State.onlyRegs_setV s x b⟩

/-- Settles O24: both handlers are one register write (`setV_writes_only_its_register`), of the immediate and of the
old V[Y]. -/
theorem registerLoads : Obligations.RegisterLoads := by
  refine ⟨fun x nn s => ?_, fun x y s => ?_, fun w => ⟨decodeWord_of_family6, fun hfamily hn => ?_⟩⟩
  · exact setV_writes_only_its_register (exec_ldImm x nn s)
  · exact setV_writes_only_its_register (exec_ldReg x y s)
  · rw [decodeWord_of_family8 hfamily, decodeFamily8_n0 hn]

/-- Settles O25: the handler is one register write of the byte sum, which as a number is the sum modulo 256. -/
theorem addImmediateWraps : Obligations.AddImmediateWraps := by
  refine ⟨fun x nn s => ?_, fun w => decodeWord_of_family7⟩
  obtain ⟨t, hexec, hsum, hframe⟩ := setV_writes_only_its_register (exec_addImm x nn s)
  have hmod : (t.v x).toNat = ((s.v x).toNat + nn.toNat) % 256 := by rw [hsum, BitVec.toNat_add]
  exact ⟨t, hexec, hmod, hframe⟩

/-- Settles O26: the three handlers are one register write each (`setV_writes_only_its_register`), and the low nibble
selects among them. -/
theorem bitwiseOperations : Obligations.BitwiseOperations := by
  refine ⟨fun x y s => ⟨?_, ?_, ?_⟩, fun w hfamily => ?_⟩
  · exact setV_writes_only_its_register (exec_orReg x y s)
  · exact setV_writes_only_its_register (exec_andReg x y s)
  · exact setV_writes_only_its_register (exec_xorReg x y s)
  · rw [decodeWord_of_family8 hfamily]
    exact ⟨decodeFamily8_n1, decodeFamily8_n2, decodeFamily8_n3⟩

end Sys2Proof.Machine

/-! ## Proofs: LD I, addr (spec/42_index_memory.md R161) -/

namespace Sys2Proof

/-! ### Dispatch of family 0xA (spec/30_encoding.md R89) -/

theorem decodeWord_of_familyA {w : Word} (hf : fieldFamily w = 0xA) : decodeWord w = .ok (.ldI (fieldNNN w)) := by
  simp [decodeWord, hf]

end Sys2Proof

namespace Sys2Proof.Machine

/-! ### The frame of a write of I -/

theorem State.onlyI_setI (s : State) (a : Word) : OnlyI s (s.setI a) := ⟨rfl, State.setI_byte s a⟩

/-! ### The handler -/

theorem exec_ldI (nnn : Addr) (s : State) : exec (.ldI nnn) s = .next (s.setI (addrWord nnn)) := rfl

/-- Settles O32: the handler is one write of I (`exec_ldI`), of the address zero-extended to a word
(`addrWord_toNat`). -/
theorem setIndex : Obligations.SetIndex := by
  refine ⟨fun nnn s => ?_, fun w hfamily => decodeWord_of_familyA hfamily⟩
  exact ⟨s.setI (addrWord nnn), exec_ldI nnn s, addrWord_toNat nnn, State.onlyI_setI s _⟩

end Sys2Proof.Machine

/-! ## Proofs: CLS and the collision flag of DRW (spec/43_display.md R181 to R186) -/

namespace Sys2Proof

theorem decodeWord_of_family0_n0 {w : Word} (hf : fieldFamily w = 0x0) (hn : fieldN w = 0x0) :
    decodeWord w = .ok .cls := by
  simp [decodeWord, hf, decodeFamily0, hn]

end Sys2Proof

namespace Sys2Proof.Machine

/-! ### Pixels of the grid (spec/10_state.md R37) -/

theorem State.pixel_of_inGrid (s : State) {px py : Nat} (hx : px < s.params.fbW) (hy : py < s.params.fbH) :
    s.pixel px py = s.fb.contains (pixelIndex s.params.fbW px py) := by
  rw [State.pixel, decide_eq_true hx, decide_eq_true hy, Bool.true_and, Bool.true_and]

/-- A pixel that is on lies in the grid: outside it every pixel reads as off. -/
theorem State.inGrid_of_pixel {s : State} {px py : Nat} (h : s.pixel px py = true) :
    px < s.params.fbW ∧ py < s.params.fbH := by
  simp only [State.pixel, Bool.and_eq_true, decide_eq_true_eq] at h
  exact h.1

theorem State.pixel_setFb_nil (s : State) (px py : Nat) : (s.setFb []).pixel px py = false := by
  simp [State.pixel]

/-! ### Flags as bytes (spec/10_state.md R21) -/

theorem flagByte_eq_zero_or_one (b : Bool) : flagByte b = 0 ∨ flagByte b = 1 := by
  cases b
  · exact .inl rfl
  · exact .inr rfl

theorem flagByte_eq_one_iff (b : Bool) : flagByte b = 1 ↔ b = true := by
  cases b <;> decide

/-! ### The handlers -/

theorem exec_cls (s : State) : exec .cls s = .next (s.setFb []) := rfl

/-- The blit of `DXYN` in the terms of `Drawn`: the rows from I on, the origin wrapped into the grid (R183, R184). -/
def State.drwBlit (s : State) (x y : Reg) (n : Nibble) : Blit :=
  s.blit ((s.v x).toNat % s.params.fbW) ((s.v y).toNat % s.params.fbH) (spriteRows s n)

/-- What `DXYN` leaves where it does not fault: the drawn framebuffer, and the collision in VF (R185, R186). -/
def State.drwResult (s : State) (x y : Reg) (n : Nibble) : State :=
  (s.setFb (s.drwBlit x y n).1).setFlag (s.drwBlit x y n).2

theorem exec_drw_of_inRange (x y : Reg) (n : Nibble) (s : State)
    (h : n.toNat = 0 ∨ s.i.toNat + n.toNat - 1 ≤ 0xFFF) :
    exec (.drw x y n) s = .next (s.drwResult x y n) := by
  have hrange : s.spriteInRange n = true := (State.spriteInRange_iff s n).mpr (by omega)
  exact if_pos hrange

/-! ### The two results of DRW -/

section DrawResult

variable (s : State) (x y : Reg) (n : Nibble)

theorem State.drwResult_pixel {px py : Nat} (hx : px < s.params.fbW) (hy : py < s.params.fbH) :
    (s.drwResult x y n).pixel px py = (s.pixel px py ^^ Drawn s x y n px py) := by
  rw [State.pixel_of_inGrid s hx hy, State.pixel_of_inGrid (s.drwResult x y n) hx hy]
  exact blitRows_contains s.params _ _ _ (s.fb, false) px py hx hy

theorem State.drwBlit_hit_iff :
    (s.drwBlit x y n).2 = true ↔ ∃ px py, px < s.params.fbW ∧ py < s.params.fbH ∧ Drawn s x y n px py = true ∧
      s.pixel px py = true := by
  rw [State.drwBlit, State.blit, blitRows_hit, or_iff_right Bool.false_ne_true]
  refine exists_congr fun px => exists_congr fun py => ?_
  refine and_congr_right fun hx => and_congr_right fun hy => and_congr_right fun _ => ?_
  rw [State.pixel_of_inGrid s hx hy]

theorem State.drwResult_vf : (s.drwResult x y n).v 15 = flagByte (s.drwBlit x y n).2 :=
  State.v_setV_self _ vf _

/-- A lit pixel under a set bit of the sprite goes off: its XOR with 1 is 0. -/
theorem State.drwResult_pixel_of_collision {px py : Nat} (hdrawn : Drawn s x y n px py = true)
    (hon : s.pixel px py = true) : (s.drwResult x y n).pixel px py = false := by
  obtain ⟨hx, hy⟩ := State.inGrid_of_pixel hon
  rw [State.drwResult_pixel s x y n hx hy, hdrawn, hon, Bool.xor_self]

end DrawResult

/-! ### The obligations -/

/-- Settles O39: the handler is one write of the empty framebuffer (`exec_cls`), in which every pixel reads as off. -/
theorem clearTurnsEveryPixelOff : Obligations.ClearTurnsEveryPixelOff := by
  refine ⟨fun s => ?_, fun w hfamily hn => decodeWord_of_family0_n0 hfamily hn⟩
  exact ⟨s.setFb [], exec_cls s, State.pixel_setFb_nil s, rfl, State.setFb_byte s []⟩

/-- Settles O41: VF is the blit's collision as a byte, the collision is a lit pixel of the grid under a set bit
(`State.drwBlit_hit_iff`), and the XOR turns such a pixel off. -/
theorem drawSetsVfOnCollision : Obligations.DrawSetsVfOnCollision := by
  intro x y n s hrange
  refine ⟨s.drwResult x y n, exec_drw_of_inRange x y n s hrange, ?_, ?_, fun px py hdrawn hon => ?_⟩
  · rw [State.drwResult_vf]
    exact flagByte_eq_zero_or_one _
  · rw [State.drwResult_vf, flagByte_eq_one_iff]
    exact State.drwBlit_hit_iff s x y n
  · exact State.drwResult_pixel_of_collision s x y n hdrawn hon

end Sys2Proof.Machine

/-! ## Proofs: the key wait and the timer instructions (spec/44_keys_timers.md R203 to R206) -/

namespace Sys2Proof

/-! ### Dispatch of family 0xF by its low byte (spec/30_encoding.md R90) -/

section FamilyF

variable {w : Word}

theorem decodeWord_of_familyF (hf : fieldFamily w = 0xF) : decodeWord w = decodeFamilyF w := by
  simp [decodeWord, hf]

theorem decodeFamilyF_nn07 (hnn : fieldNN w = 0x07) : decodeFamilyF w = .ok (.ldVxDt (fieldX w)) := by
  simp [decodeFamilyF, hnn]

theorem decodeFamilyF_nn0A (hnn : fieldNN w = 0x0A) : decodeFamilyF w = .ok (.ldVxK (fieldX w)) := by
  simp [decodeFamilyF, hnn]

theorem decodeFamilyF_nn15 (hnn : fieldNN w = 0x15) : decodeFamilyF w = .ok (.ldDtVx (fieldX w)) := by
  simp [decodeFamilyF, hnn]

theorem decodeFamilyF_nn18 (hnn : fieldNN w = 0x18) : decodeFamilyF w = .ok (.ldStVx (fieldX w)) := by
  simp [decodeFamilyF, hnn]

end FamilyF

end Sys2Proof

namespace Sys2Proof.Machine

/-! ### The key scan (R204) -/

/-- The scan finds a key exactly where it is held and none below it is. -/
theorem State.lowestKey_eq_some_iff (s : State) (k : Fin 16) :
    s.lowestKey = some k ↔ s.key k = true ∧ ∀ j : Fin 16, j < k → s.key j = false := by
  rw [State.lowestKey, ← Fin.find?_eq_find?_finRange, Fin.find?_eq_some_iff]

theorem keyByte_toNat (k : Fin 16) : (keyByte k).toNat = k.val := by
  rw [keyByte, BitVec.toNat_ofNat]
  omega

/-! ### The sound output -/

/-- TONE is ST ≠ 0 as a number (spec/60_exceptions.md R242). -/
theorem tone_eq_true_iff (s : State) : tone s = true ↔ s.st.toNat ≠ 0 := by
  rw [tone, bne_iff_ne, ne_eq, ne_eq, BitVec.toNat_eq]
  rfl

/-! ### The handlers, one equation per case -/

theorem exec_ldVxK_of_held {s : State} {k : Fin 16} (x : Reg) (hheld : s.key k = true)
    (hlowest : ∀ j : Fin 16, j < k → s.key j = false) : exec (.ldVxK x) s = .next (s.setV x (keyByte k)) := by
  have hscan : s.lowestKey = some k := (State.lowestKey_eq_some_iff s k).mpr ⟨hheld, hlowest⟩
  rw [exec, execLdVxK, hscan]

theorem exec_ldVxK_of_none {s : State} (x : Reg) (hnone : ∀ k : Fin 16, s.key k = false) :
    exec (.ldVxK x) s = .next (s.setPc (s.pc - 2)) := by
  have hscan : s.lowestKey = none := (State.lowestKey_none s).mpr hnone
  rw [exec, execLdVxK, hscan]

theorem exec_ldVxDt (x : Reg) (s : State) : exec (.ldVxDt x) s = .next (s.setV x s.dt) := rfl

theorem exec_ldDtVx (x : Reg) (s : State) : exec (.ldDtVx x) s = .next (s.setDt (s.v x)) := rfl

theorem exec_ldStVx (x : Reg) (s : State) : exec (.ldStVx x) s = .next (s.setSt (s.v x)) := rfl

/-! ### The cycle around a handler that records no fault -/

/-- Where the handler leaves the fault record alone, the cycle is the handler on the state after Fetch, then the
Tick. -/
theorem step_eq_tick_of_executes {s u : State} {i : Instr} (h : Executes s i) (hexec : exec i s.fetch = .next u)
    (hkept : u.faultCode = s.faultCode) : step s = .next u.tick := by
  have ⟨hfault, _, _⟩ := h
  have hnone : u.faultCode = .none := hkept.trans hfault
  rw [step_of_executes h, hexec, finishCycle_next, State.endCycle, if_pos hnone]

/-! ### The obligations -/

/-- Settles O46: the handler is one register write of the scan's key, or PC back by 2 where the scan finds none
(`exec_ldVxK_of_held`, `exec_ldVxK_of_none`); in the waiting cycle this undoes Fetch's advance, and the Tick follows. -/
theorem keyWaitTakesTheLowestHeldKey : Obligations.KeyWaitTakesTheLowestHeldKey := by
  refine ⟨fun x s k hheld hlowest => ?_, fun x s hnone => ?_, fun x s hexecutes hnone => ?_, fun w hfamily hnn => ?_⟩
  · obtain ⟨t, hexec, hkey, hframe⟩ := setV_writes_only_its_register (exec_ldVxK_of_held x hheld hlowest)
    have hindex : (t.v x).toNat = k.val := by rw [hkey, keyByte_toNat]
    exact ⟨t, hexec, hindex, hframe⟩
  · exact ⟨s.setPc (s.pc - 2), exec_ldVxK_of_none x hnone, State.setPc_pc s _, State.onlyPc_setPc s _⟩
  · have hexec : exec (.ldVxK x) s.fetch = .next (s.fetch.setPc (s.fetch.pc - 2)) := exec_ldVxK_of_none x hnone
    have hpc : s.fetch.pc - 2 = s.pc := by rw [State.fetch_pc, BitVec.add_sub_cancel]
    exact ⟨_, step_eq_tick_of_executes hexecutes hexec rfl, hpc, tickTimer_toNat s.dt, tickTimer_toNat s.st⟩
  · rw [decodeWord_of_familyF hfamily, decodeFamilyF_nn0A hnn]

/-- The cycle of R203: V[X] receives DT as it was before the Tick. -/
theorem step_ldVxDt {x : Reg} {s : State} (h : Executes s (.ldVxDt x)) :
    ∃ t, step s = .next t ∧ t.v x = s.dt ∧ t.dt.toNat = s.dt.toNat - 1 :=
  ⟨_, step_eq_tick_of_executes h (exec_ldVxDt x s.fetch) rfl, State.v_setV_self s.fetch x s.dt, tickTimer_toNat s.dt⟩

/-- The cycle of R205: the Tick lowers the DT just written. -/
theorem step_ldDtVx {x : Reg} {s : State} (h : Executes s (.ldDtVx x)) :
    ∃ t, step s = .next t ∧ t.dt.toNat = (s.v x).toNat - 1 :=
  ⟨_, step_eq_tick_of_executes h (exec_ldDtVx x s.fetch) rfl, tickTimer_toNat (s.v x)⟩

/-- The cycle of R206: the Tick lowers the ST just written, so that TONE stays off for V[X] = 1. -/
theorem step_ldStVx {x : Reg} {s : State} (h : Executes s (.ldStVx x)) :
    ∃ t, step s = .next t ∧ t.st.toNat = (s.v x).toNat - 1 ∧ (tone t = true ↔ 2 ≤ (s.v x).toNat) := by
  have hst : (s.fetch.setSt (s.fetch.v x)).tick.st.toNat = (s.v x).toNat - 1 := tickTimer_toNat (s.v x)
  refine ⟨_, step_eq_tick_of_executes h (exec_ldStVx x s.fetch) rfl, hst, ?_⟩
  rw [tone_eq_true_iff, hst]
  omega

/-- Settles O47: the handlers are one write each, the cycle adds the Tick after it (`step_ldVxDt`, `step_ldDtVx`,
`step_ldStVx`), and the low byte selects among them. -/
theorem timerAccess : Obligations.TimerAccess := by
  refine ⟨fun x s => ⟨?_, ?_, ?_⟩, fun x s => ⟨step_ldVxDt, step_ldDtVx, step_ldStVx⟩, fun w hfamily => ?_⟩
  · exact setV_writes_only_its_register (exec_ldVxDt x s)
  · exact ⟨s.setDt (s.v x), exec_ldDtVx x s, State.setDt_dt s _, rfl, State.setDt_byte s _⟩
  · exact ⟨s.setSt (s.v x), exec_ldStVx x s, State.setSt_st s _, rfl, State.setSt_byte s _⟩
  · rw [decodeWord_of_familyF hfamily]
    exact ⟨decodeFamilyF_nn07, decodeFamilyF_nn15, decodeFamilyF_nn18⟩

end Sys2Proof.Machine

/-! ## Proofs: accesses through I, the Tick and TONE (spec/60_exceptions.md R223, R240, R242) -/

namespace Sys2Proof.Machine

/-! ### Accesses through I at 4096 or above (spec/20_memory.md R63, spec/43_display.md R183) -/

theorem State.not_reaches {s : State} {k : Nat} (h : 4096 ≤ s.i.toNat + k) : ¬ s.reaches k = true := by
  rw [State.reaches_iff]
  omega

theorem State.not_spriteInRange {s : State} {n : Nibble} (hpos : 0 < n.toNat) (h : 4096 ≤ s.i.toNat + n.toNat - 1) :
    ¬ s.spriteInRange n = true := by
  rw [State.spriteInRange_iff]
  omega

theorem exec_drw_of_outOfRange {s : State} {n : Nibble} (x y : Reg) (hpos : 0 < n.toNat)
    (h : 4096 ≤ s.i.toNat + n.toNat - 1) : exec (.drw x y n) s = .next (s.raise .memOutOfRange) :=
  if_neg (State.not_spriteInRange hpos h)

theorem exec_ldB_of_outOfRange {s : State} (x : Reg) (h : 4096 ≤ s.i.toNat + 2) :
    exec (.ldB x) s = .next (s.raise .memOutOfRange) :=
  if_neg (State.not_reaches h)

theorem exec_storeRegs_of_outOfRange {s : State} {x : Reg} (h : 4096 ≤ s.i.toNat + x.val) :
    exec (.storeRegs x) s = .next (s.raise .memOutOfRange) :=
  if_neg (State.not_reaches h)

theorem exec_loadRegs_of_outOfRange {s : State} {x : Reg} (h : 4096 ≤ s.i.toNat + x.val) :
    exec (.loadRegs x) s = .next (s.raise .memOutOfRange) :=
  if_neg (State.not_reaches h)

/-! ### The handlers that only set I -/

theorem exec_addI (x : Reg) (s : State) : exec (.addI x) s = .next (s.setI (s.i + regWord (s.v x))) := rfl

theorem exec_ldF (x : Reg) (s : State) : exec (.ldF x) s = .next (s.setI (glyphAddr (s.v x))) := rfl

/-- A handler that is one write of I keeps FAULT_CODE. -/
theorem faultCode_kept_of_setI {s t : State} {i : Instr} {a : Word} (hexec : exec i s = .next (s.setI a))
    (hnext : exec i s = .next t) : t.faultCode = s.faultCode := by
  obtain rfl : s.setI a = t := Host.Outcome.next.inj (hexec.symm.trans hnext)
  exact State.setI_faultCode s a

/-! ### The cycle around a handler that raises a fault -/

/-- The fetch address a handler computes as PC − 2 is the PC before Fetch (R226). -/
theorem State.fetch_raise_faultPc (s : State) (c : FaultCode) : (s.fetch.raise c).faultPc = s.pc := by
  rw [State.raise_faultPc, State.fetch_pc, BitVec.add_sub_cancel]

/-- Where the handler raises a fault, the cycle ends with the record: no Tick follows (R85). -/
theorem step_eq_raise_of_executes {s : State} {i : Instr} {c : FaultCode} (h : Executes s i)
    (hexec : exec i s.fetch = .next (s.fetch.raise c)) (hc : c ≠ .none) : step s = .next (s.fetch.raise c) := by
  have hrecorded : (s.fetch.raise c).faultCode ≠ .none := hc
  rw [step_of_executes h, hexec, finishCycle_next, State.endCycle, if_neg hrecorded]

/-! ### The obligations -/

/-- Settles O38: each of the four handlers raises where its range check fails, from which the cycle's record follows
(`step_eq_raise_of_executes`, `State.fetch_raise_faultPc`); the other three are one write of I. -/
theorem indexedAccessOutOfRangeFaults : Obligations.IndexedAccessOutOfRangeFaults := by
  refine ⟨fun s i hexecutes hout => ?_, fun s t i hindex hnext => ?_⟩
  · have hraises : exec i s.fetch = .next (s.fetch.raise .memOutOfRange) := by
      obtain ⟨x, y, n, rfl, hpos, hlast⟩ | ⟨x, rfl, hlast⟩ | ⟨x, rfl | rfl, hlast⟩ := hout
      · exact exec_drw_of_outOfRange x y hpos hlast
      · exact exec_ldB_of_outOfRange x hlast
      · exact exec_storeRegs_of_outOfRange hlast
      · exact exec_loadRegs_of_outOfRange hlast
    exact ⟨_, step_eq_raise_of_executes hexecutes hraises nofun, State.raise_faultCode _ _,
      State.fetch_raise_faultPc s _⟩
  · obtain ⟨a, rfl⟩ | ⟨x, rfl⟩ | ⟨x, rfl⟩ := hindex
    · exact faultCode_kept_of_setI (exec_ldI a s) hnext
    · exact faultCode_kept_of_setI (exec_addI x s) hnext
    · exact faultCode_kept_of_setI (exec_ldF x s) hnext

/-- Settles O8: the handler's state records no fault, as before the cycle, so that the Tick follows it
(`step_eq_tick_of_executes`) and writes the timers alone. -/
theorem cycleEndsWithTheTick : Obligations.CycleEndsWithTheTick := by
  intro s u i hexecutes hexec hnone
  have ⟨hfault, _, _⟩ := hexecutes
  have hstep : step s = .next u.tick := step_eq_tick_of_executes hexecutes hexec (hnone.trans hfault.symm)
  exact ⟨u.tick, hstep, tickTimer_toNat u.dt, tickTimer_toNat u.st, rfl⟩

/-- Settles O55: TONE compares ST with 0 as a byte, which is the comparison as a number (`tone_eq_true_iff`). -/
theorem toneIsOnWhileStIsNonZero : Obligations.ToneIsOnWhileStIsNonZero :=
  tone_eq_true_iff

end Sys2Proof.Machine

/-! ## Proofs: what a handler can do, and what every step keeps (spec/10_state.md, spec/60_exceptions.md section 2) -/

namespace Sys2Proof.Machine

/-! ### The remaining handlers, one equation per case -/

theorem exec_jpV0 (nnn : Addr) (s : State) :
    exec (.jpV0 nnn) s = .next (s.setPc (addrWord nnn + regWord (s.v 0))) := rfl

theorem exec_addReg (x y : Reg) (s : State) :
    exec (.addReg x y) s = .next ((s.setFlag (carryOut (s.v x) (s.v y))).setV x (s.v x + s.v y)) := by
  rw [← ofNat_exactSum]
  rfl

theorem exec_subReg (x y : Reg) (s : State) :
    exec (.subReg x y) s = .next ((s.setFlag (noBorrow (s.v x) (s.v y))).setV x
      ((s.setFlag (noBorrow (s.v x) (s.v y))).v x - (s.setFlag (noBorrow (s.v x) (s.v y))).v y)) := rfl

theorem exec_subnReg (x y : Reg) (s : State) :
    exec (.subnReg x y) s = .next ((s.setFlag (noBorrow (s.v y) (s.v x))).setV x
      ((s.setFlag (noBorrow (s.v y) (s.v x))).v y - (s.setFlag (noBorrow (s.v y) (s.v x))).v x)) := rfl

theorem exec_shr (x : Reg) (s : State) :
    exec (.shr x) s = .next ((s.setFlag (shiftedOutLow (s.v x))).setV x
      ((s.setFlag (shiftedOutLow (s.v x))).v x >>> 1)) := rfl

theorem exec_shl (x : Reg) (s : State) :
    exec (.shl x) s = .next ((s.setFlag (shiftedOutHigh (s.v x))).setV x
      ((s.setFlag (shiftedOutHigh (s.v x))).v x <<< 1)) := rfl

theorem exec_rnd (x : Reg) (nn : Byte) (s : State) :
    exec (.rnd x nn) s = .next (rndWith s.randByte x nn s.drawn) := rfl

theorem exec_ldB_of_inRange {s : State} (x : Reg) (h : s.i.toNat + 2 ≤ 0xFFF) :
    exec (.ldB x) s = .next (s.setBytes s.i.toNat (bcdDigits (s.v x))) :=
  if_pos ((State.reaches_iff s 2).mpr h)

theorem exec_storeRegs_of_inRange {s : State} {x : Reg} (h : s.i.toNat + x.val ≤ 0xFFF) :
    exec (.storeRegs x) s = .next (s.setBytes s.i.toNat (s.regsUpTo x)) :=
  if_pos ((State.reaches_iff s x.val).mpr h)

theorem exec_loadRegs_of_inRange {s : State} {x : Reg} (h : s.i.toNat + x.val ≤ 0xFFF) :
    exec (.loadRegs x) s = .next (s.loadV x s.i.toNat) :=
  if_pos ((State.reaches_iff s x.val).mpr h)

theorem exec_skp_of_lt {s : State} {x : Reg} (h : (s.v x).toNat < 16) :
    exec (.skp x) s = .next (s.skipIf (s.key ⟨(s.v x).toNat, h⟩)) := by
  rw [exec, execSkp, State.keyOf_of_lt s x h]

theorem exec_skp_of_ge {s : State} {x : Reg} (h : 15 < (s.v x).toNat) :
    exec (.skp x) s = .next (s.raise .keyOutOfRange) := by
  rw [exec, execSkp, State.keyOf_of_ge s x h]

theorem exec_sknp_of_lt {s : State} {x : Reg} (h : (s.v x).toNat < 16) :
    exec (.sknp x) s = .next (s.skipIf (!s.key ⟨(s.v x).toNat, h⟩)) := by
  rw [exec, execSknp, State.keyOf_of_lt s x h]

theorem exec_sknp_of_ge {s : State} {x : Reg} (h : 15 < (s.v x).toNat) :
    exec (.sknp x) s = .next (s.raise .keyOutOfRange) := by
  rw [exec, execSknp, State.keyOf_of_ge s x h]

/-! ### The effects of a handler -/

/-- The handler of `i` raises the fault `c`: the conditions of spec/60_exceptions.md R221 to R225. -/
inductive Raises (s : State) : Instr → FaultCode → Prop where
  | ret (h : s.sp.val = 0) : Raises s .ret .stackUnderflow
  | call (nnn : Addr) (h : s.sp.val = 16) : Raises s (.call nnn) .stackOverflow
  | drw (x y : Reg) {n : Nibble} (hpos : 0 < n.toNat) (h : 4096 ≤ s.i.toNat + n.toNat - 1) :
      Raises s (.drw x y n) .memOutOfRange
  | ldB (x : Reg) (h : 4096 ≤ s.i.toNat + 2) : Raises s (.ldB x) .memOutOfRange
  | storeRegs {x : Reg} (h : 4096 ≤ s.i.toNat + x.val) : Raises s (.storeRegs x) .memOutOfRange
  | loadRegs {x : Reg} (h : 4096 ≤ s.i.toNat + x.val) : Raises s (.loadRegs x) .memOutOfRange
  | skp {x : Reg} (h : 15 < (s.v x).toNat) : Raises s (.skp x) .keyOutOfRange
  | sknp {x : Reg} (h : 15 < (s.v x).toNat) : Raises s (.sknp x) .keyOutOfRange

/-- PC values a handler may jump to from a PC that Fetch left: at most 0x10FE (spec/10_state.md R27). -/
def JumpBound (s : State) (a : Word) : Prop :=
  2 ≤ s.pc.toNat → s.pc.toNat ≤ 0x1000 → a.toNat ≤ 0x10FE

/-- The register file `v` differs from that of `s` at most in the registers that `i` may write. -/
def WritesListed (s : State) (i : Instr) (v : Vector Byte 16) : Prop :=
  ∀ r : Reg, mayWrite i r = false → v[r.val] = s.v r

/-- What the handler of an instruction can leave, by the pieces of state it writes. -/
inductive Effect (s : State) : Instr → State → Prop where
  | regs {i : Instr} {v : Vector Byte 16} (h : WritesListed s i v) : Effect s i { s with regs := v }
  | random {x : Reg} {nn : Byte} (r : Byte) : Effect s (.rnd x nn) (rndWith r x nn s.drawn)
  | jump {i : Instr} {a : Word} (h : JumpBound s a) : Effect s i (s.setPc a)
  | ret (h : 0 < s.sp.val) : Effect s .ret (s.drop.setPc (s.top h))
  | call (nnn : Addr) (h : s.sp.val < 16) : Effect s (.call nnn) ((s.push s.pc h).setPc (addrWord nnn))
  | index {i : Instr} (a : Word) (h : (∃ nnn, i = .ldI nnn) ∨ (∃ x, i = .addI x) ∨ ∃ x, i = .ldF x) :
      Effect s i (s.setI a)
  | store {i : Instr} {m : Memory} (h : (∃ x, i = .ldB x) ∨ ∃ x, i = .storeRegs x)
      (hwf : Memory.wf s.params.font s.mem → Memory.wf s.params.font m) : Effect s i { s with mem := m }
  | delay (x : Reg) : Effect s (.ldDtVx x) (s.setDt (s.v x))
  | sound (x : Reg) : Effect s (.ldStVx x) (s.setSt (s.v x))
  | clear : Effect s .cls (s.setFb [])
  | draw (x y : Reg) (n : Nibble) : Effect s (.drw x y n) (s.drwResult x y n)
  | fault {i : Instr} {c : FaultCode} (h : Raises s i c) : Effect s i (s.raise c)

/-! ### Register and memory writes as effects -/

/-- A write of V[X] by an instruction whose one destination is X. -/
theorem effect_setV {s : State} {i : Instr} {x : Reg} (b : Byte) (hi : ∀ r, mayWrite i r = (r == x)) :
    Effect s i (s.setV x b) := by
  refine .regs fun r hr => ?_
  have hne : r ≠ x := by simpa [hi] using hr
  exact (State.v_setV s x r b).trans (if_neg hne)

/-- A write of VF, then of V[X], by a flag handler. -/
theorem effect_setFlag_setV {s : State} {i : Instr} {x : Reg} (f : Bool) (b : Byte)
    (hi : ∀ r, mayWrite i r = (r == x || r == vf)) : Effect s i ((s.setFlag f).setV x b) := by
  refine .regs fun r hr => ?_
  have hne : r ≠ x ∧ r ≠ vf := by simpa [hi] using hr
  calc ((s.setFlag f).setV x b).v r = (s.setFlag f).v r := (State.v_setV _ x r b).trans (if_neg hne.1)
    _ = s.v r := (State.v_setFlag s r f).trans (if_neg hne.2)

theorem effect_loadV (s : State) (x : Reg) (a : Nat) : Effect s (.loadRegs x) (s.loadV x a) :=
  .regs fun r hr => (State.v_loadV s x r a).trans (if_neg (of_decide_eq_false hr))

/-- A block write inside memory, which keeps the canonical form. -/
theorem effect_setBytes {s : State} {i : Instr} {bs : List Byte} (hi : (∃ x, i = .ldB x) ∨ ∃ x, i = .storeRegs x)
    (hin : s.i.toNat + bs.length ≤ 4096) : Effect s i (s.setBytes s.i.toNat bs) := by
  rw [State.setBytes_frame]
  exact .store hi (State.wf_setBytes s s.i.toNat bs hin)

/-! ### Bounds of the jumps -/

theorem jumpBound_addrWord (s : State) (nnn : Addr) : JumpBound s (addrWord nnn) := by
  intro _ _
  rw [addrWord_toNat]
  omega

theorem regWord_toNat (b : Byte) : (regWord b).toNat = b.toNat :=
  BitVec.toNat_setWidth_of_le (by decide)

/-- NNN + V0 stays far below 2^16, so the sum is exact (R118). -/
theorem addrWord_add_regWord_toNat (nnn : Addr) (b : Byte) :
    (addrWord nnn + regWord b).toNat = nnn.toNat + b.toNat := by
  rw [BitVec.toNat_add, addrWord_toNat, regWord_toNat]
  omega

theorem jumpBound_addrWord_add (s : State) (nnn : Addr) (b : Byte) : JumpBound s (addrWord nnn + regWord b) := by
  intro _ _
  rw [addrWord_add_regWord_toNat]
  omega

/-- A key wait goes back to the instruction it was fetched from. -/
theorem jumpBound_back (s : State) : JumpBound s (s.pc - 2) := by
  intro hlow hhigh
  have hback : (s.pc - 2).toNat = s.pc.toNat - 2 := BitVec.toNat_sub_of_le hlow
  omega

theorem effect_skipIf (s : State) (i : Instr) (c : Bool) : Effect s i (s.skipIf c) := by
  cases c
  · exact .regs fun r _ => rfl
  · refine .jump fun _ hhigh => ?_
    have hskip : (s.pc + 2).toNat = (s.pc.toNat + 2) % 2 ^ 16 := BitVec.toNat_add s.pc 2
    omega

/-! ### The inversion of `exec` -/

/-- Every handler answers a next state, by one of the effects of `Effect`. -/
theorem exec_effect (i : Instr) (s : State) : ∃ t, exec i s = .next t ∧ Effect s i t := by
  cases i with
  | cls => exact ⟨_, exec_cls s, .clear⟩
  | ret =>
    obtain h | h := Nat.eq_zero_or_pos s.sp.val
    · exact ⟨_, exec_ret_of_empty s h, .fault (.ret h)⟩
    · exact ⟨_, exec_ret_of_pos s h, .ret h⟩
  | jp nnn => exact ⟨_, exec_jp nnn s, .jump (jumpBound_addrWord s nnn)⟩
  | call nnn =>
    obtain h | h := Nat.lt_or_eq_of_le (Nat.le_of_lt_succ s.sp.isLt)
    · exact ⟨_, exec_call_of_lt nnn s h, .call nnn h⟩
    · exact ⟨_, exec_call_of_full nnn s h, .fault (.call nnn h)⟩
  | seImm x nn => exact ⟨_, exec_seImm x nn s, effect_skipIf s _ _⟩
  | sneImm x nn => exact ⟨_, exec_sneImm x nn s, effect_skipIf s _ _⟩
  | seReg x y => exact ⟨_, exec_seReg x y s, effect_skipIf s _ _⟩
  | sneReg x y => exact ⟨_, exec_sneReg x y s, effect_skipIf s _ _⟩
  | ldImm x nn => exact ⟨_, exec_ldImm x nn s, effect_setV _ fun _ => rfl⟩
  | addImm x nn => exact ⟨_, exec_addImm x nn s, effect_setV _ fun _ => rfl⟩
  | ldReg x y => exact ⟨_, exec_ldReg x y s, effect_setV _ fun _ => rfl⟩
  | orReg x y => exact ⟨_, exec_orReg x y s, effect_setV _ fun _ => rfl⟩
  | andReg x y => exact ⟨_, exec_andReg x y s, effect_setV _ fun _ => rfl⟩
  | xorReg x y => exact ⟨_, exec_xorReg x y s, effect_setV _ fun _ => rfl⟩
  | addReg x y => exact ⟨_, exec_addReg x y s, effect_setFlag_setV _ _ fun _ => rfl⟩
  | subReg x y => exact ⟨_, exec_subReg x y s, effect_setFlag_setV _ _ fun _ => rfl⟩
  | subnReg x y => exact ⟨_, exec_subnReg x y s, effect_setFlag_setV _ _ fun _ => rfl⟩
  | shr x => exact ⟨_, exec_shr x s, effect_setFlag_setV _ _ fun _ => rfl⟩
  | shl x => exact ⟨_, exec_shl x s, effect_setFlag_setV _ _ fun _ => rfl⟩
  | ldI nnn => exact ⟨_, exec_ldI nnn s, .index _ (.inl ⟨nnn, rfl⟩)⟩
  | addI x => exact ⟨_, exec_addI x s, .index _ (.inr (.inl ⟨x, rfl⟩))⟩
  | ldF x => exact ⟨_, exec_ldF x s, .index _ (.inr (.inr ⟨x, rfl⟩))⟩
  | jpV0 nnn => exact ⟨_, exec_jpV0 nnn s, .jump (jumpBound_addrWord_add s nnn _)⟩
  | rnd x nn => exact ⟨_, exec_rnd x nn s, .random _⟩
  | drw x y n =>
    by_cases h : n.toNat = 0 ∨ s.i.toNat + n.toNat - 1 ≤ 0xFFF
    · exact ⟨_, exec_drw_of_inRange x y n s h, .draw x y n⟩
    · have hpos : 0 < n.toNat := by omega
      have hlast : 4096 ≤ s.i.toNat + n.toNat - 1 := by omega
      exact ⟨_, exec_drw_of_outOfRange x y hpos hlast, .fault (.drw x y hpos hlast)⟩
  | skp x =>
    obtain h | h := Nat.lt_or_ge (s.v x).toNat 16
    · exact ⟨_, exec_skp_of_lt h, effect_skipIf s _ _⟩
    · exact ⟨_, exec_skp_of_ge h, .fault (.skp h)⟩
  | sknp x =>
    obtain h | h := Nat.lt_or_ge (s.v x).toNat 16
    · exact ⟨_, exec_sknp_of_lt h, effect_skipIf s _ _⟩
    · exact ⟨_, exec_sknp_of_ge h, .fault (.sknp h)⟩
  | ldVxDt x => exact ⟨_, exec_ldVxDt x s, effect_setV _ fun _ => rfl⟩
  | ldVxK x =>
    cases hscan : s.lowestKey with
    | none => exact ⟨_, exec_ldVxK_of_none x ((State.lowestKey_none s).mp hscan), .jump (jumpBound_back s)⟩
    | some k =>
      obtain ⟨hheld, hlowest⟩ := (State.lowestKey_eq_some_iff s k).mp hscan
      exact ⟨_, exec_ldVxK_of_held x hheld hlowest, effect_setV _ fun _ => rfl⟩
  | ldDtVx x => exact ⟨_, exec_ldDtVx x s, .delay x⟩
  | ldStVx x => exact ⟨_, exec_ldStVx x s, .sound x⟩
  | ldB x =>
    obtain h | h := Nat.lt_or_ge (s.i.toNat + 2) 4096
    · exact ⟨_, exec_ldB_of_inRange x (Nat.le_of_lt_succ h), effect_setBytes (.inl ⟨x, rfl⟩) h⟩
    · exact ⟨_, exec_ldB_of_outOfRange x h, .fault (.ldB x h)⟩
  | storeRegs x =>
    obtain h | h := Nat.lt_or_ge (s.i.toNat + x.val) 4096
    · have hin : s.i.toNat + (s.regsUpTo x).length ≤ 4096 := by rw [State.length_regsUpTo]; exact h
      exact ⟨_, exec_storeRegs_of_inRange (Nat.le_of_lt_succ h), effect_setBytes (.inr ⟨x, rfl⟩) hin⟩
    · exact ⟨_, exec_storeRegs_of_outOfRange h, .fault (.storeRegs h)⟩
  | loadRegs x =>
    obtain h | h := Nat.lt_or_ge (s.i.toNat + x.val) 4096
    · exact ⟨_, exec_loadRegs_of_inRange (Nat.le_of_lt_succ h), effect_loadV s x _⟩
    · exact ⟨_, exec_loadRegs_of_outOfRange h, .fault (.loadRegs h)⟩

/-- What a handler answers is one of the effects. -/
theorem effect_of_exec {i : Instr} {s t : State} (h : exec i s = .next t) : Effect s i t := by
  obtain ⟨u, hexec, heffect⟩ := exec_effect i s
  obtain rfl : u = t := Host.Outcome.next.inj (hexec.symm.trans h)
  exact heffect

/-- The inversion of `step`: the machine was faulted and stays, or PC could not be fetched, or a handler ran on the
state after Fetch, or the word was undefined. -/
theorem step_next_cases {s t : State} (h : step s = .next t) :
    (s.faultCode ≠ .none ∧ t = s) ∨
    (s.faultCode = .none ∧ s.canFetch = false ∧ t = s.fetchFault) ∨
    (∃ i u, s.faultCode = .none ∧ s.canFetch = true ∧ Effect s.fetch i u ∧ t = u.endCycle) ∨
    (s.faultCode = .none ∧ s.canFetch = true ∧ t = s.fetch.tick) := by
  obtain ⟨hfault, hstep⟩ | ⟨hnone, hfetch, hstep⟩ | ⟨i, hnone, hfetch, _, hstep⟩ | ⟨_, hnone, hfetch, _, hstep⟩ :=
    step_cases s
  · exact .inl ⟨hfault, Host.Outcome.next.inj (h.symm.trans hstep)⟩
  · exact .inr (.inl ⟨hnone, hfetch, Host.Outcome.next.inj (h.symm.trans hstep)⟩)
  · obtain ⟨u, hexec, heffect⟩ := exec_effect i s.fetch
    rw [hexec, finishCycle_next] at hstep
    exact .inr (.inr (.inl ⟨i, u, hnone, hfetch, heffect, Host.Outcome.next.inj (h.symm.trans hstep)⟩))
  · exact .inr (.inr (.inr ⟨hnone, hfetch, Host.Outcome.next.inj (h.symm.trans hstep)⟩))

/-! ### The invariant -/

theorem State.setPc_inv {s : State} {a : Word} (ha : a.toNat ≤ 0x10FE) (h : s.Inv) : (s.setPc a).Inv := by
  obtain ⟨hmem, hfb, _, hrest⟩ := h
  exact ⟨hmem, hfb, ha, hrest⟩

theorem State.top_le {s : State} (hsp : 0 < s.sp.val) (h : s.Inv) : (s.top hsp).toNat ≤ 0x1000 := by
  obtain ⟨_, _, _, hstack, _⟩ := h
  have hk : s.sp.val - 1 < 16 := by omega
  exact hstack ⟨s.sp.val - 1, hk⟩

theorem State.push_inv {s : State} {w : Word} (hsp : s.sp.val < 16) (hw : w.toNat ≤ 0x1000) (h : s.Inv) :
    (s.push w hsp).Inv := by
  obtain ⟨hmem, hfb, hpc, hstack, hsize⟩ := h
  refine ⟨hmem, hfb, hpc, fun k => ?_, hsize⟩
  by_cases hk : k.val = s.sp.val
  · simpa [hk] using hw
  · rw [State.push_stack_of_ne s w hsp k hk]
    exact hstack k

theorem State.setFb_inv {s : State} {f : Framebuffer} (hf : Framebuffer.wf s.params.fbW s.params.fbH f) (h : s.Inv) :
    (s.setFb f).Inv := by
  obtain ⟨hmem, _, hrest⟩ := h
  exact ⟨hmem, hf, hrest⟩

theorem State.drwResult_inv {s : State} (x y : Reg) (n : Nibble) (h : s.Inv) : (s.drwResult x y n).Inv := by
  have ⟨_, hfb, _⟩ := h
  have hwf : Framebuffer.wf s.params.fbW s.params.fbH (s.drwBlit x y n).1 :=
    blitRows_wf s.params _ _ _ (s.fb, false) hfb
  have hdrawn : (s.setFb (s.drwBlit x y n).1).Inv := State.setFb_inv hwf h
  exact hdrawn

/-- Every effect keeps the invariant from a PC that Fetch left. -/
theorem Effect.inv {s t : State} {i : Instr} (he : Effect s i t) (h : s.Inv) (hlow : 2 ≤ s.pc.toNat)
    (hhigh : s.pc.toNat ≤ 0x1000) : t.Inv := by
  cases he with
  | regs _ => exact h
  | random _ => exact h
  | jump ha => exact State.setPc_inv (ha hlow hhigh) h
  | ret hsp =>
    have hdrop : s.drop.Inv := h
    have htop : (s.top hsp).toNat ≤ 0x1000 := State.top_le hsp h
    exact State.setPc_inv (by omega) hdrop
  | call nnn hsp => exact State.setPc_inv (jumpBound_addrWord s nnn hlow hhigh) (State.push_inv hsp hhigh h)
  | index _ _ => exact h
  | store _ hwf =>
    obtain ⟨hmem, hrest⟩ := h
    exact ⟨hwf hmem, hrest⟩
  | delay _ => exact h
  | sound _ => exact h
  | clear => exact State.setFb_inv ⟨.nil, nofun⟩ h
  | draw x y n => exact State.drwResult_inv x y n h
  | fault _ => exact h

theorem State.canFetch_iff (s : State) : s.canFetch = true ↔ s.pc.toNat ≤ 0xFFE := decide_eq_true_iff

/-- Fetch advances a PC that it accepts without a wrap. -/
theorem State.fetch_pc_toNat {s : State} (h : s.canFetch = true) : s.fetch.pc.toNat = s.pc.toNat + 2 := by
  have hpc : s.pc.toNat ≤ 0xFFE := s.canFetch_iff.mp h
  have hadd : s.fetch.pc.toNat = (s.pc.toNat + 2) % 2 ^ 16 := BitVec.toNat_add s.pc 2
  omega

theorem State.fetch_inv {s : State} (hfetch : s.canFetch = true) (h : s.Inv) : s.fetch.Inv := by
  have hpc : s.pc.toNat ≤ 0xFFE := s.canFetch_iff.mp hfetch
  have hbound : (s.pc + 2).toNat ≤ 0x10FE := by
    have hadd : (s.pc + 2).toNat = s.pc.toNat + 2 := State.fetch_pc_toNat hfetch
    omega
  exact State.setPc_inv hbound h

theorem State.endCycle_inv {s : State} (h : s.Inv) : s.endCycle.Inv := by
  rw [State.endCycle_eq]
  exact h

/-- Settles O14: by the cases of a STEP (`step_next_cases`); the handler runs after Fetch, with PC in 2 to 0x1000,
where each of its effects keeps the invariant (`Effect.inv`). -/
theorem stepKeepsTheInvariant : Obligations.StepKeepsTheInvariant := by
  intro s t hinv hstep
  obtain ⟨_, rfl⟩ | ⟨_, _, rfl⟩ | ⟨i, u, _, hfetch, heffect, rfl⟩ | ⟨_, hfetch, rfl⟩ := step_next_cases hstep
  · exact hinv
  · exact hinv
  · have hpc : s.fetch.pc.toNat = s.pc.toNat + 2 := State.fetch_pc_toNat hfetch
    have hle : s.pc.toNat ≤ 0xFFE := s.canFetch_iff.mp hfetch
    exact State.endCycle_inv (heffect.inv (State.fetch_inv hfetch hinv) (by omega) (by omega))
  · exact State.fetch_inv hfetch hinv

end Sys2Proof.Machine

/-! ## Proofs: rules of the whole machine (spec/10_state.md, spec/60_exceptions.md section 2) -/

namespace Sys2Proof.Machine

section Writers

variable {s t : State} {i : Instr}

/-! ### Who writes which piece of state -/

theorem Effect.keys_eq (h : Effect s i t) : t.keys = s.keys := by
  cases h <;> rfl

theorem Effect.ir_eq (h : Effect s i t) : t.ir = s.ir := by
  cases h <;> rfl

theorem Effect.params_eq (h : Effect s i t) : t.params = s.params := by
  cases h <;> rfl

theorem Effect.fb_writer (h : Effect s i t) (hne : t.fb ≠ s.fb) : i = .cls ∨ ∃ x y n, i = .drw x y n := by
  cases h with
  | clear => exact .inl rfl
  | draw x y n => exact .inr ⟨x, y, n, rfl⟩
  | _ => exact absurd rfl hne

theorem Effect.i_writer (h : Effect s i t) (hne : t.i ≠ s.i) :
    (∃ a, i = .ldI a) ∨ (∃ x, i = .addI x) ∨ ∃ x, i = .ldF x := by
  cases h with
  | index _ hi => exact hi
  | _ => exact absurd rfl hne

theorem Effect.byte_writer (h : Effect s i t) {a : Nat} (hne : t.byte a ≠ s.byte a) :
    (∃ x, i = .ldB x) ∨ ∃ x, i = .storeRegs x := by
  cases h with
  | store hi _ => exact hi
  | _ => exact absurd rfl hne

theorem Effect.dt_writer (h : Effect s i t) (hne : t.dt ≠ s.dt) : ∃ x, i = .ldDtVx x := by
  cases h with
  | delay x => exact ⟨x, rfl⟩
  | _ => exact absurd rfl hne

theorem Effect.st_writer (h : Effect s i t) (hne : t.st ≠ s.st) : ∃ x, i = .ldStVx x := by
  cases h with
  | sound x => exact ⟨x, rfl⟩
  | _ => exact absurd rfl hne

theorem Effect.callStack_writer (h : Effect s i t) (hne : t.sp ≠ s.sp ∨ t.stack ≠ s.stack) :
    i = .ret ∨ ∃ a, i = .call a := by
  cases h with
  | ret _ => exact .inl rfl
  | call nnn _ => exact .inr ⟨nnn, rfl⟩
  | _ => exact absurd hne (not_or_intro (absurd rfl) (absurd rfl))

theorem Effect.randDraws_writer (h : Effect s i t) (hne : t.randDraws ≠ s.randDraws) : ∃ x nn, i = .rnd x nn := by
  cases h with
  | @random x nn _ => exact ⟨x, nn, rfl⟩
  | _ => exact absurd rfl hne

theorem Effect.v_writer (h : Effect s i t) {r : Reg} (hne : t.v r ≠ s.v r) : mayWrite i r = true := by
  cases h with
  | regs hlisted => exact Bool.of_not_eq_false fun hr => hne (hlisted r hr)
  | @random x nn b =>
    have hr : r = x := by_contra fun hr => hne ((State.v_setV s.drawn x r _).trans (if_neg hr))
    exact beq_iff_eq.mpr hr
  | draw x y n =>
    have hr : r = vf := by_contra fun hr => hne ((State.v_setFlag _ r _).trans (if_neg hr))
    exact beq_iff_eq.mpr hr
  | _ => exact absurd rfl hne

/-- A handler keeps the fault record, or raises one of its faults and does nothing else. -/
theorem Effect.faultCode_cases (h : Effect s i t) :
    (t.faultCode = s.faultCode ∧ t.faultPc = s.faultPc) ∨ ∃ c, Raises s i c ∧ t = s.raise c := by
  cases h with
  | fault hraises => exact .inr ⟨_, hraises, rfl⟩
  | _ => exact .inl ⟨rfl, rfl⟩

end Writers

/-- Settles O48: one lemma per piece of state says which effects write it (`Effect.fb_writer` and those beside it). -/
theorem writersOfEachPieceOfState : Obligations.WritersOfEachPieceOfState := by
  intro i s t hexec
  have h : Effect s i t := effect_of_exec hexec
  exact ⟨h.keys_eq, h.ir_eq, h.params_eq, h.fb_writer, h.i_writer, fun ⟨_, hne⟩ => h.byte_writer hne, h.dt_writer,
    h.st_writer, h.callStack_writer, h.randDraws_writer⟩

/-- Settles O49: three effects write registers, a listed one, the random load and DRW's VF (`Effect.v_writer`). -/
theorem writersOfGeneralRegisters : Obligations.WritersOfGeneralRegisters :=
  fun _ _ _ _ hexec hne => (effect_of_exec hexec).v_writer hne

/-- Settles O50: a handler that changes FAULT_CODE raised a fault (`Effect.faultCode_cases`), and each way of raising
one is a clause of the list. -/
theorem onlyTheListedConditionsFault : Obligations.OnlyTheListedConditionsFault := by
  intro i s t hexec hne
  obtain ⟨hkept, _⟩ | ⟨c, hraises, rfl⟩ := (effect_of_exec hexec).faultCode_cases
  · exact absurd hkept hne
  · cases hraises with
    | ret h => exact .inl ⟨rfl, rfl, h⟩
    | call nnn h => exact .inr (.inl ⟨rfl, ⟨nnn, rfl⟩, h⟩)
    | drw x y hpos h => exact .inr (.inr (.inl ⟨rfl, .inl ⟨x, y, _, rfl, hpos, h⟩⟩))
    | ldB x h => exact .inr (.inr (.inl ⟨rfl, .inr (.inl ⟨x, rfl, h⟩)⟩))
    | storeRegs h => exact .inr (.inr (.inl ⟨rfl, .inr (.inr ⟨_, .inl rfl, h⟩)⟩))
    | loadRegs h => exact .inr (.inr (.inl ⟨rfl, .inr (.inr ⟨_, .inr rfl, h⟩)⟩))
    | skp h => exact .inr (.inr (.inr ⟨rfl, _, .inl rfl, h⟩))
    | sknp h => exact .inr (.inr (.inr ⟨rfl, _, .inr rfl, h⟩))

/-! ### The fault record over a cycle -/

theorem Raises.ne_none {s : State} {i : Instr} {c : FaultCode} (h : Raises s i c) : c ≠ .none := by
  cases h <;> nofun

theorem Raises.ne_fetchOutOfRange {s : State} {i : Instr} {c : FaultCode} (h : Raises s i c) :
    c ≠ .fetchOutOfRange := by
  cases h <;> nofun

@[simp] theorem State.endCycle_faultCode (s : State) : s.endCycle.faultCode = s.faultCode := by
  rw [State.endCycle_eq]

@[simp] theorem State.endCycle_ir (s : State) : s.endCycle.ir = s.ir := by
  rw [State.endCycle_eq]

@[simp] theorem State.endCycle_params (s : State) : s.endCycle.params = s.params := by
  rw [State.endCycle_eq]

theorem State.endCycle_of_faulted {s : State} (h : s.faultCode ≠ .none) : s.endCycle = s := if_neg h

/-- A PC above 0xFFE, as the fetch check sees it. -/
theorem State.canFetch_eq_false_iff (s : State) : s.canFetch = false ↔ 0xFFE < s.pc.toNat := by
  rw [← Bool.not_eq_true, State.canFetch_iff, Nat.not_le]

theorem State.onlyFaultRecord_fetchFault (s : State) : OnlyFaultRecord s s.fetchFault := ⟨rfl, fun _ => rfl⟩

/-- Settles O51: of the cases of a STEP (`step_next_cases`) two end faulted, the fetch fault and a handler that raised;
there PC − 2 is the fetch address and no Tick follows. -/
theorem faultingCycleWritesOnlyTheRecord : Obligations.FaultingCycleWritesOnlyTheRecord := by
  intro s t hnone hstep hfaulted
  obtain ⟨hfault, _⟩ | ⟨_, hfetch, rfl⟩ | ⟨i, u, _, hfetch, heffect, rfl⟩ | ⟨_, _, rfl⟩ := step_next_cases hstep
  · exact absurd hnone hfault
  · exact ⟨rfl, .inl ⟨rfl, s.canFetch_eq_false_iff.mp hfetch, State.onlyFaultRecord_fetchFault s⟩⟩
  · rw [State.endCycle_faultCode] at hfaulted
    rw [State.endCycle_of_faulted hfaulted]
    obtain ⟨hkept, _⟩ | ⟨c, hraises, rfl⟩ := heffect.faultCode_cases
    · exact absurd (hkept.trans hnone) hfaulted
    · exact ⟨State.fetch_raise_faultPc s c,
        .inr ⟨hraises.ne_fetchOutOfRange, s.canFetch_iff.mp hfetch, State.fetch_pc s, rfl⟩⟩
  · exact absurd hnone hfaulted

/-- Settles O53: a faulted machine stays as it is, and no effect of a handler writes the parameters. -/
theorem stepKeepsParametersAndRecordedFaults : Obligations.StepKeepsParametersAndRecordedFaults := by
  intro s t hstep
  obtain ⟨_, rfl⟩ | ⟨hnone, _, rfl⟩ | ⟨i, u, hnone, _, heffect, rfl⟩ | ⟨hnone, _, rfl⟩ := step_next_cases hstep
  · exact ⟨rfl, fun _ => ⟨rfl, rfl⟩⟩
  · exact ⟨rfl, absurd hnone⟩
  · exact ⟨(State.endCycle_params u).trans heffect.params_eq, absurd hnone⟩
  · exact ⟨rfl, absurd hnone⟩

/-! ### The cycle -/

theorem highByte_wordOfBytes (hi lo : Byte) : highByte (wordOfBytes hi lo) = hi := by
  unfold highByte wordOfBytes
  exact BitVec.extractLsb'_append_eq_left

theorem lowByte_wordOfBytes (hi lo : Byte) : lowByte (wordOfBytes hi lo) = lo := by
  unfold lowByte wordOfBytes
  exact BitVec.extractLsb'_append_eq_right

/-- Settles O7: Fetch writes IR, and neither a handler (`Effect.ir_eq`) nor the end of the cycle does. -/
theorem irHoldsTheFetchedWordBigEndian : Obligations.IrHoldsTheFetchedWordBigEndian := by
  intro s t hnone hpc hstep
  have hir : t.ir = s.fetchedWord := by
    obtain ⟨hfault, _⟩ | ⟨_, hfetch, _⟩ | ⟨i, u, _, _, heffect, rfl⟩ | ⟨_, _, rfl⟩ := step_next_cases hstep
    · exact absurd hnone hfault
    · exact absurd hpc (Nat.not_le.mpr (s.canFetch_eq_false_iff.mp hfetch))
    · exact (State.endCycle_ir u).trans heffect.ir_eq
    · rfl
  rw [hir]
  exact ⟨highByte_wordOfBytes _ _, lowByte_wordOfBytes _ _⟩

/-- Settles O11: every handler has one of the effects (`exec_effect`), and so every case of a STEP is a next state. -/
theorem everyStepAnswersANextState : Obligations.EveryStepAnswersANextState := by
  have hexec : ∀ (i : Instr) (s : State), ∃ t, exec i s = .next t := fun i s =>
    (exec_effect i s).imp fun _ h => h.1
  refine ⟨fun s => ?_, hexec⟩
  obtain ⟨_, hstep⟩ | ⟨_, _, hstep⟩ | ⟨i, _, _, _, hstep⟩ | ⟨_, _, _, _, hstep⟩ := step_cases s
  · exact ⟨s, hstep⟩
  · exact ⟨s.fetchFault, hstep⟩
  · obtain ⟨u, hu⟩ := hexec i s.fetch
    exact ⟨u.endCycle, by rw [hstep, hu, finishCycle_next]⟩
  · exact ⟨s.fetch.tick, hstep⟩

theorem decode_pair_eq_ok {hi lo : Byte} {i : Instr} (h : decode [hi, lo] = .ok (i, [])) :
    decodeWord (wordOfBytes hi lo) = .ok i := by
  cases hd : decodeWord (wordOfBytes hi lo) with
  | ok j => simpa [decode, hd] using h
  | error r => simp [decode, hd] at h

/-- Settles O5: the two bytes decode to `i`, so that `i` is what the cycle executes (`step_of_executes`), and the end of
the cycle is the Tick or nothing. -/
theorem stepRunsTheDecodedInstruction : Obligations.StepRunsTheDecodedInstruction := by
  intro s i hnone hpc _ hdecode
  have hexecutes : Executes s i := ⟨hnone, hpc, decode_pair_eq_ok hdecode⟩
  obtain ⟨u, hu, _⟩ := exec_effect i s.fetch
  have hu' : exec i { s with
      ir := wordOfBytes (s.byte s.pc.toNat) (s.byte (s.pc.toNat + 1)), pc := s.pc + 2 } = .next u := hu
  rw [step_of_executes hexecutes, hu, hu']
  rfl

theorem hostLoad_of_faulted {s : State} (bs : List Byte) (h : s.faultCode ≠ .none) : hostLoad bs s = s := if_neg h

/-- Settles O9: STEP and LOAD both begin with the test of FAULT_CODE. -/
theorem faultedMachineIsStuck : Obligations.FaultedMachineIsStuck :=
  fun s h => ⟨step_of_faulted s h, fun bs => hostLoad_of_faulted bs h⟩

/-- Settles O10: above 0xFFE the fetch check fails, and the fetch fault writes the record alone. -/
theorem unfetchablePcFaults : Obligations.UnfetchablePcFaults := by
  intro s hnone hpc
  exact ⟨s.fetchFault, step_of_unfetchable s hnone (s.canFetch_eq_false_iff.mpr hpc), rfl, rfl,
    State.onlyFaultRecord_fetchFault s⟩

/-! ### Reset and the host's transactions (spec/70_reset_and_hazards.md) -/

theorem State.byte_resetWith (p : Params) (a : Nat) : (State.resetWith p).byte a = memDefault p.font a := rfl

theorem memDefault_font (font : Vector Byte 80) (k : Fin 80) : memDefault font (0x050 + k.val) = font[k.val] := by
  have hin : 0x050 ≤ 0x050 + k.val ∧ 0x050 + k.val < 0x0A0 := by omega
  simp [memDefault, hin]

theorem memDefault_outside (font : Vector Byte 80) {a : Nat} (h : a < 0x050 ∨ 0x0A0 ≤ a) : memDefault font a = 0 :=
  dif_neg (by omega)

/-- Settles O12: every field is the one `State.resetWith` writes; memory lists nothing, so that each address reads as
`memDefault`, the font or 0. -/
theorem resetValues : Obligations.ResetValues := by
  refine ⟨fun p => ⟨fun r => ?_, rfl, rfl, rfl, fun k => ?_, rfl, rfl, fun k => ?_, fun k => ?_, fun a ha => ?_,
    fun x y => ?_, rfl, rfl, rfl, rfl⟩, rfl, rfl, rfl⟩
  · exact Vector.getElem_replicate r.isLt
  · exact Vector.getElem_replicate k.isLt
  · exact Vector.getElem_replicate k.isLt
  · rw [State.byte_resetWith, memDefault_font]
  · rw [State.byte_resetWith]
    exact memDefault_outside p.font (ha.imp_right And.left)
  · exact State.pixel_setFb_nil (State.resetWith p) x y

/-- The reset state meets the invariant for all positive sizes. -/
theorem State.resetWith_inv (p : Params) (hw : 0 < p.fbW) (hh : 0 < p.fbH) : (State.resetWith p).Inv := by
  have hpc : (0x200 : Word).toNat ≤ 0x10FE := by decide
  have hstack : ∀ k : Fin 16, (Vector.replicate 16 (0 : Word))[k.val].toNat ≤ 0x1000 := fun k => by simp
  exact ⟨Memory.wf_nil p.font, ⟨.nil, nofun⟩, hpc, hstack, hw, hh⟩

/-- Settles O13: `State.resetWith_inv`, of which the default parameters are one case. -/
theorem invariantHoldsAtReset : Obligations.InvariantHoldsAtReset :=
  ⟨State.resetWith_inv Config.defaultParams (by decide) (by decide), State.resetWith_inv⟩

theorem hostLoad_of_le {s : State} {bs : List Byte} (h : s.faultCode = .none) (hlen : bs.length ≤ 3584) :
    hostLoad bs s = s.setBytes 0x200 bs := by
  rw [hostLoad, Config.maxRom, Config.progStart, if_pos h, if_neg (Nat.not_lt.mpr hlen)]

theorem hostLoad_of_gt {s : State} {bs : List Byte} (h : s.faultCode = .none) (hlen : 3584 < bs.length) :
    hostLoad bs s = { s with faultCode := .loadTooLarge } := by
  rw [hostLoad, Config.maxRom, if_pos h, if_pos hlen]

theorem State.setBytes_inv {s : State} {a : Nat} {bs : List Byte} (hin : a + bs.length ≤ Config.memSize) (h : s.Inv) :
    (s.setBytes a bs).Inv := by
  obtain ⟨hmem, hrest⟩ := h
  have hwf : Memory.wf s.params.font (s.setBytes a bs).mem := State.wf_setBytes s a bs hin hmem
  rw [State.setBytes_frame]
  exact ⟨hwf, hrest⟩

theorem hostLoad_inv {s : State} (bs : List Byte) (h : s.Inv) : (hostLoad bs s).Inv := by
  by_cases hnone : s.faultCode = .none
  · obtain hgt | hle := Nat.lt_or_ge 3584 bs.length
    · rw [hostLoad_of_gt hnone hgt]
      exact h
    · have hin : 0x200 + bs.length ≤ Config.memSize := by
        rw [Config.memSize]
        omega
      rw [hostLoad_of_le hnone hle]
      exact State.setBytes_inv hin h
  · rw [hostLoad_of_faulted bs hnone]
    exact h

/-- Settles O15: RESET gives the reset state of the machine's own sizes, which the invariant says are positive; LOAD
writes inside memory (`hostLoad_inv`); KEY_IN writes no field the invariant reads. -/
theorem hostOperationsKeepTheInvariant : Obligations.HostOperationsKeepTheInvariant := by
  intro s hinv
  have ⟨_, _, _, _, hw, hh⟩ := hinv
  exact ⟨State.resetWith_inv s.params hw hh, fun bs => hostLoad_inv bs hinv, fun _ => hinv⟩

/-- A block write changes only the bytes of its range. -/
theorem State.onlyBytes_setBytes (s : State) (a : Nat) (bs : List Byte) :
    OnlyBytes a bs.length s (s.setBytes a bs) := by
  refine ⟨State.setBytes_frame s a bs, fun b hb => ?_⟩
  have hout : ¬ (a ≤ b ∧ b < a + bs.length) := by omega
  rw [State.byte_setBytes, if_neg hout]

theorem State.byte_setBytes_of_lt (s : State) (a : Nat) {bs : List Byte} {k : Nat} (hk : k < bs.length) :
    (s.setBytes a bs).byte (a + k) = bs.getD k 0 := by
  have hin : a ≤ a + k ∧ a + k < a + bs.length := by omega
  rw [State.byte_setBytes, if_pos hin, Nat.add_sub_cancel_left]

/-- Settles O54, by the length of the image: within the limit LOAD is one block write at 0x200, above it the write of
FAULT_CODE. -/
theorem loadCopiesTheImage : Obligations.LoadCopiesTheImage := by
  refine ⟨fun bs s hnone hlen => ?_, fun bs s hnone hlen => hostLoad_of_gt hnone hlen⟩
  rw [hostLoad_of_le hnone hlen]
  refine ⟨fun k hk => ?_, State.onlyBytes_setBytes s 0x200 bs⟩
  rw [State.byte_setBytes_of_lt s 0x200 hk, List.getD_eq_getElem bs 0 hk, List.getElem?_eq_getElem hk]

/-- Settles O52: STEP and LOAD leave a faulted machine as it is, KEY_IN writes the keys alone, and so RESET is the one
transaction after which no fault is recorded. -/
theorem onlyResetLeavesTheFaultedState : Obligations.OnlyResetLeavesTheFaultedState := by
  refine ⟨fun tr s t hfaulted htransact hnone => ?_, fun s => ⟨hostReset s, rfl, rfl, rfl⟩⟩
  cases tr with
  | reset => rfl
  | load bs =>
    have ht : hostLoad bs s = t := Host.Outcome.next.inj htransact
    rw [hostLoad_of_faulted bs hfaulted] at ht
    exact absurd (ht ▸ hnone) hfaulted
  | keyIn keys =>
    obtain rfl : hostKeyIn keys s = t := Host.Outcome.next.inj htransact
    exact absurd hnone hfaulted
  | step =>
    have ht : s = t := Host.Outcome.next.inj ((step_of_faulted s hfaulted).symm.trans htransact)
    exact absurd (ht ▸ hnone) hfaulted

end Sys2Proof.Machine

/-! ## Proofs: encoding and decoding (spec/30_encoding.md sections 2 to 6) -/

namespace Sys2Proof

/-! ### A word is its fields (R86, R87) -/

section Fields

variable {w : Word}

theorem packNNN_fields (w : Word) : packNNN (fieldFamily w) (fieldNNN w) = w := by
  unfold packNNN fieldFamily fieldNNN
  ext i hi
  simp
  grind

theorem packXNN_fields (w : Word) : packXNN (fieldFamily w) (fieldX w) (fieldNN w) = w := by
  have hx : BitVec.ofFin (w := 4) (fieldX w) = w.extractLsb' 8 4 := rfl
  unfold packXNN fieldFamily fieldNN
  rw [hx]
  ext i hi
  simp
  grind

theorem packXYN_fields (w : Word) : packXYN (fieldFamily w) (fieldX w) (fieldY w) (fieldN w) = w := by
  have hx : BitVec.ofFin (w := 4) (fieldX w) = w.extractLsb' 8 4 := rfl
  have hy : BitVec.ofFin (w := 4) (fieldY w) = w.extractLsb' 4 4 := rfl
  unfold packXYN fieldFamily fieldN
  rw [hx, hy]
  ext i hi
  simp
  grind

theorem eq_packNNN_iff {f : Nibble} {a : Addr} : w = packNNN f a ↔ fieldFamily w = f ∧ fieldNNN w = a := by
  constructor
  · rintro rfl
    exact ⟨fieldFamily_packNNN f a, fieldNNN_packNNN f a⟩
  · rintro ⟨rfl, rfl⟩
    exact (packNNN_fields w).symm

theorem eq_packXNN_iff {f : Nibble} {x : Reg} {b : Byte} :
    w = packXNN f x b ↔ fieldFamily w = f ∧ fieldX w = x ∧ fieldNN w = b := by
  constructor
  · rintro rfl
    exact ⟨fieldFamily_packXNN f x b, fieldX_packXNN f x b, fieldNN_packXNN f x b⟩
  · rintro ⟨rfl, rfl, rfl⟩
    exact (packXNN_fields w).symm

theorem eq_packXYN_iff {f : Nibble} {x y : Reg} {n : Nibble} :
    w = packXYN f x y n ↔ fieldFamily w = f ∧ fieldX w = x ∧ fieldY w = y ∧ fieldN w = n := by
  constructor
  · rintro rfl
    exact ⟨fieldFamily_packXYN f x y n, fieldX_packXYN f x y n, fieldY_packXYN f x y n, fieldN_packXYN f x y n⟩
  · rintro ⟨rfl, rfl, rfl, rfl⟩
    exact (packXYN_fields w).symm

end Fields

/-! ### Words that agree on the used bits have the same fields there (R88) -/

section Masks

theorem packXYN_and (f g : Nibble) (x y : Reg) (n d e m : Nibble) :
    packXYN f x y n &&& (g ++ d ++ e ++ m) =
      (f &&& g) ++ (BitVec.ofFin (w := 4) x &&& d) ++ (BitVec.ofFin (w := 4) y &&& e) ++ (n &&& m) := by
  unfold packXYN
  rw [BitVec.and_append, BitVec.and_append, BitVec.and_append]

/-! A nibble under a mask nibble, in the spelling of the masks. -/

theorem nibble_and_F (n : Nibble) : n &&& 0xF = n := BitVec.and_allOnes

theorem nibble_and_0 (n : Nibble) : n &&& 0x0 = 0x0 := BitVec.and_zero

variable (w v : Word)

theorem and_F00F : w &&& 0xF00F = packXYN (fieldFamily w) 0 0 (fieldN w) := by
  have hmask : (0xF00F : Word) = (0xF : Nibble) ++ (0x0 : Nibble) ++ (0x0 : Nibble) ++ (0xF : Nibble) := rfl
  conv_lhs => rw [← packXYN_fields w, hmask, packXYN_and]
  simp only [nibble_and_F, nibble_and_0]
  rfl

theorem and_FF0F : w &&& 0xFF0F = packXYN (fieldFamily w) (fieldX w) 0 (fieldN w) := by
  have hmask : (0xFF0F : Word) = (0xF : Nibble) ++ (0xF : Nibble) ++ (0x0 : Nibble) ++ (0xF : Nibble) := rfl
  conv_lhs => rw [← packXYN_fields w, hmask, packXYN_and]
  simp only [nibble_and_F, nibble_and_0]
  rfl

theorem and_FFF0 : w &&& 0xFFF0 = packXYN (fieldFamily w) (fieldX w) (fieldY w) 0 := by
  have hmask : (0xFFF0 : Word) = (0xF : Nibble) ++ (0xF : Nibble) ++ (0xF : Nibble) ++ (0x0 : Nibble) := rfl
  conv_lhs => rw [← packXYN_fields w, hmask, packXYN_and]
  simp only [nibble_and_F, nibble_and_0]
  rfl

theorem and_FFFF : w &&& 0xFFFF = w := BitVec.and_allOnes

theorem and_F00F_eq_iff : w &&& 0xF00F = v &&& 0xF00F ↔ fieldFamily w = fieldFamily v ∧ fieldN w = fieldN v := by
  rw [and_F00F, and_F00F, eq_packXYN_iff]
  simp

theorem and_FF0F_eq_iff : w &&& 0xFF0F = v &&& 0xFF0F ↔
    fieldFamily w = fieldFamily v ∧ fieldX w = fieldX v ∧ fieldN w = fieldN v := by
  rw [and_FF0F, and_FF0F, eq_packXYN_iff]
  simp

theorem and_FFF0_eq_iff : w &&& 0xFFF0 = v &&& 0xFFF0 ↔
    fieldFamily w = fieldFamily v ∧ fieldX w = fieldX v ∧ fieldY w = fieldY v := by
  rw [and_FFF0, and_FFF0, eq_packXYN_iff]
  simp

end Masks

/-! ### The fields that select an instruction (R88 to R90) -/

section Dispatch

variable {w : Word} {i : Instr}

/-- The dispatch and operand fields of `w` are those of the instruction. -/
def HasFields (w : Word) : Instr → Prop
  | .cls => fieldFamily w = 0x0 ∧ fieldN w = 0x0
  | .ret => fieldFamily w = 0x0 ∧ fieldN w = 0xE
  | .jp nnn => fieldFamily w = 0x1 ∧ fieldNNN w = nnn
  | .call nnn => fieldFamily w = 0x2 ∧ fieldNNN w = nnn
  | .seImm x nn => fieldFamily w = 0x3 ∧ fieldX w = x ∧ fieldNN w = nn
  | .sneImm x nn => fieldFamily w = 0x4 ∧ fieldX w = x ∧ fieldNN w = nn
  | .seReg x y => fieldFamily w = 0x5 ∧ fieldX w = x ∧ fieldY w = y
  | .ldImm x nn => fieldFamily w = 0x6 ∧ fieldX w = x ∧ fieldNN w = nn
  | .addImm x nn => fieldFamily w = 0x7 ∧ fieldX w = x ∧ fieldNN w = nn
  | .ldReg x y => fieldFamily w = 0x8 ∧ fieldX w = x ∧ fieldY w = y ∧ fieldN w = 0x0
  | .orReg x y => fieldFamily w = 0x8 ∧ fieldX w = x ∧ fieldY w = y ∧ fieldN w = 0x1
  | .andReg x y => fieldFamily w = 0x8 ∧ fieldX w = x ∧ fieldY w = y ∧ fieldN w = 0x2
  | .xorReg x y => fieldFamily w = 0x8 ∧ fieldX w = x ∧ fieldY w = y ∧ fieldN w = 0x3
  | .addReg x y => fieldFamily w = 0x8 ∧ fieldX w = x ∧ fieldY w = y ∧ fieldN w = 0x4
  | .subReg x y => fieldFamily w = 0x8 ∧ fieldX w = x ∧ fieldY w = y ∧ fieldN w = 0x5
  | .shr x => fieldFamily w = 0x8 ∧ fieldX w = x ∧ fieldN w = 0x6
  | .subnReg x y => fieldFamily w = 0x8 ∧ fieldX w = x ∧ fieldY w = y ∧ fieldN w = 0x7
  | .shl x => fieldFamily w = 0x8 ∧ fieldX w = x ∧ fieldN w = 0xE
  | .sneReg x y => fieldFamily w = 0x9 ∧ fieldX w = x ∧ fieldY w = y
  | .ldI nnn => fieldFamily w = 0xA ∧ fieldNNN w = nnn
  | .jpV0 nnn => fieldFamily w = 0xB ∧ fieldNNN w = nnn
  | .rnd x nn => fieldFamily w = 0xC ∧ fieldX w = x ∧ fieldNN w = nn
  | .drw x y n => fieldFamily w = 0xD ∧ fieldX w = x ∧ fieldY w = y ∧ fieldN w = n
  | .skp x => fieldFamily w = 0xE ∧ fieldX w = x ∧ fieldN w = 0xE
  | .sknp x => fieldFamily w = 0xE ∧ fieldX w = x ∧ fieldN w = 0x1
  | .ldVxDt x => fieldFamily w = 0xF ∧ fieldX w = x ∧ fieldNN w = 0x07
  | .ldVxK x => fieldFamily w = 0xF ∧ fieldX w = x ∧ fieldNN w = 0x0A
  | .ldDtVx x => fieldFamily w = 0xF ∧ fieldX w = x ∧ fieldNN w = 0x15
  | .ldStVx x => fieldFamily w = 0xF ∧ fieldX w = x ∧ fieldNN w = 0x18
  | .addI x => fieldFamily w = 0xF ∧ fieldX w = x ∧ fieldNN w = 0x1E
  | .ldF x => fieldFamily w = 0xF ∧ fieldX w = x ∧ fieldNN w = 0x29
  | .ldB x => fieldFamily w = 0xF ∧ fieldX w = x ∧ fieldNN w = 0x33
  | .storeRegs x => fieldFamily w = 0xF ∧ fieldX w = x ∧ fieldNN w = 0x55
  | .loadRegs x => fieldFamily w = 0xF ∧ fieldX w = x ∧ fieldNN w = 0x65

/-- Agreement with the canonical word on the used bits is equality of the fields those bits make up. -/
theorem hasFields_iff_agree : HasFields w i ↔ w &&& usedBits i = encode i &&& usedBits i := by
  cases i with
  | cls => exact (and_F00F_eq_iff w 0x00E0).symm
  | ret => exact (and_F00F_eq_iff w 0x00EE).symm
  | seReg _ _ | sneReg _ _ =>
    rw [usedBits, encode, and_FFF0_eq_iff, fieldFamily_packXYN, fieldX_packXYN, fieldY_packXYN, HasFields]
  | shr _ | shl _ =>
    rw [usedBits, encode, and_FF0F_eq_iff, fieldFamily_packXYN, fieldX_packXYN, fieldN_packXYN, HasFields]
  | skp x =>
    have hn : fieldN (packXNN 0xE x 0x9E) = 0xE := (fieldN_packXNN ..).trans rfl
    rw [usedBits, encode, and_FF0F_eq_iff, fieldFamily_packXNN, fieldX_packXNN, hn, HasFields]
  | sknp x =>
    have hn : fieldN (packXNN 0xE x 0xA1) = 0x1 := (fieldN_packXNN ..).trans rfl
    rw [usedBits, encode, and_FF0F_eq_iff, fieldFamily_packXNN, fieldX_packXNN, hn, HasFields]
  | jp _ | call _ | ldI _ | jpV0 _ =>
    rw [usedBits, and_FFFF, and_FFFF, encode, eq_packNNN_iff, HasFields]
  | seImm _ _ | sneImm _ _ | ldImm _ _ | addImm _ _ | rnd _ _ | ldVxDt _ | ldVxK _ | ldDtVx _ | ldStVx _ | addI _
  | ldF _ | ldB _ | storeRegs _ | loadRegs _ =>
    rw [usedBits, and_FFFF, and_FFFF, encode, eq_packXNN_iff, HasFields]
  | ldReg _ _ | orReg _ _ | andReg _ _ | xorReg _ _ | addReg _ _ | subReg _ _ | subnReg _ _ | drw _ _ _ =>
    rw [usedBits, and_FFFF, and_FFFF, encode, eq_packXYN_iff, HasFields]

/-! ### The families that the earlier proofs did not need (R89) -/

theorem decodeWord_of_family0 (hf : fieldFamily w = 0x0) : decodeWord w = decodeFamily0 w := by
  simp [decodeWord, hf]

theorem decodeWord_of_familyB (hf : fieldFamily w = 0xB) : decodeWord w = .ok (.jpV0 (fieldNNN w)) := by
  simp [decodeWord, hf]

theorem decodeWord_of_familyC (hf : fieldFamily w = 0xC) : decodeWord w = .ok (.rnd (fieldX w) (fieldNN w)) := by
  simp [decodeWord, hf]

theorem decodeWord_of_familyD (hf : fieldFamily w = 0xD) :
    decodeWord w = .ok (.drw (fieldX w) (fieldY w) (fieldN w)) := by
  simp [decodeWord, hf]

theorem decodeWord_of_familyE (hf : fieldFamily w = 0xE) : decodeWord w = decodeFamilyE w := by
  simp [decodeWord, hf]

/-- The sixteen families. -/
theorem family_cases (f : Nibble) : f = 0x0 ∨ f = 0x1 ∨ f = 0x2 ∨ f = 0x3 ∨ f = 0x4 ∨ f = 0x5 ∨ f = 0x6 ∨ f = 0x7 ∨
    f = 0x8 ∨ f = 0x9 ∨ f = 0xA ∨ f = 0xB ∨ f = 0xC ∨ f = 0xD ∨ f = 0xE ∨ f = 0xF := by
  revert f
  decide

/-! ### The decoder selects by these fields (R89, R90) -/

theorem hasFields_of_decodeFamily0 (hf : fieldFamily w = 0x0) (h : decodeFamily0 w = .ok i) : HasFields w i := by
  unfold decodeFamily0 at h
  split at h <;> cases h
  · next hn => exact ⟨hf, BitVec.eq_of_toNat_eq hn⟩
  · next hn => exact ⟨hf, BitVec.eq_of_toNat_eq hn⟩

theorem hasFields_of_decodeFamily8 (hf : fieldFamily w = 0x8) (h : decodeFamily8 w = .ok i) : HasFields w i := by
  unfold decodeFamily8 at h
  split at h <;> cases h
  · next hn => exact ⟨hf, rfl, rfl, BitVec.eq_of_toNat_eq hn⟩
  · next hn => exact ⟨hf, rfl, rfl, BitVec.eq_of_toNat_eq hn⟩
  · next hn => exact ⟨hf, rfl, rfl, BitVec.eq_of_toNat_eq hn⟩
  · next hn => exact ⟨hf, rfl, rfl, BitVec.eq_of_toNat_eq hn⟩
  · next hn => exact ⟨hf, rfl, rfl, BitVec.eq_of_toNat_eq hn⟩
  · next hn => exact ⟨hf, rfl, rfl, BitVec.eq_of_toNat_eq hn⟩
  · next hn => exact ⟨hf, rfl, BitVec.eq_of_toNat_eq hn⟩
  · next hn => exact ⟨hf, rfl, rfl, BitVec.eq_of_toNat_eq hn⟩
  · next hn => exact ⟨hf, rfl, BitVec.eq_of_toNat_eq hn⟩

theorem hasFields_of_decodeFamilyE (hf : fieldFamily w = 0xE) (h : decodeFamilyE w = .ok i) : HasFields w i := by
  unfold decodeFamilyE at h
  split at h <;> cases h
  · next hn => exact ⟨hf, rfl, BitVec.eq_of_toNat_eq hn⟩
  · next hn => exact ⟨hf, rfl, BitVec.eq_of_toNat_eq hn⟩

theorem hasFields_of_decodeFamilyF (hf : fieldFamily w = 0xF) (h : decodeFamilyF w = .ok i) : HasFields w i := by
  unfold decodeFamilyF at h
  split at h <;> cases h
  all_goals
    next hnn => exact ⟨hf, rfl, BitVec.eq_of_toNat_eq hnn⟩

/-- An instruction that the decoder answers has the word's fields. -/
theorem hasFields_of_decodeWord (h : decodeWord w = .ok i) : HasFields w i := by
  obtain hf | hf | hf | hf | hf | hf | hf | hf | hf | hf | hf | hf | hf | hf | hf | hf := family_cases (fieldFamily w)
  · exact hasFields_of_decodeFamily0 hf (decodeWord_of_family0 hf ▸ h)
  · cases (decodeWord_of_family1 hf).symm.trans h; exact ⟨hf, rfl⟩
  · cases (decodeWord_of_family2 hf).symm.trans h; exact ⟨hf, rfl⟩
  · cases (decodeWord_of_family3 hf).symm.trans h; exact ⟨hf, rfl, rfl⟩
  · cases (decodeWord_of_family4 hf).symm.trans h; exact ⟨hf, rfl, rfl⟩
  · cases (decodeWord_of_family5 hf).symm.trans h; exact ⟨hf, rfl, rfl⟩
  · cases (decodeWord_of_family6 hf).symm.trans h; exact ⟨hf, rfl, rfl⟩
  · cases (decodeWord_of_family7 hf).symm.trans h; exact ⟨hf, rfl, rfl⟩
  · exact hasFields_of_decodeFamily8 hf (decodeWord_of_family8 hf ▸ h)
  · cases (decodeWord_of_family9 hf).symm.trans h; exact ⟨hf, rfl, rfl⟩
  · cases (decodeWord_of_familyA hf).symm.trans h; exact ⟨hf, rfl⟩
  · cases (decodeWord_of_familyB hf).symm.trans h; exact ⟨hf, rfl⟩
  · cases (decodeWord_of_familyC hf).symm.trans h; exact ⟨hf, rfl, rfl⟩
  · cases (decodeWord_of_familyD hf).symm.trans h; exact ⟨hf, rfl, rfl, rfl⟩
  · exact hasFields_of_decodeFamilyE hf (decodeWord_of_familyE hf ▸ h)
  · exact hasFields_of_decodeFamilyF hf (decodeWord_of_familyF hf ▸ h)

/-- The decoder answers the instruction that has the word's fields. -/
theorem decodeWord_of_hasFields (h : HasFields w i) : decodeWord w = .ok i := by
  cases i with
  | cls => obtain ⟨hf, hn⟩ := h; exact decodeWord_of_family0_n0 hf hn
  | ret => obtain ⟨hf, hn⟩ := h; exact decodeWord_of_family0_nE hf hn
  | jp _ => obtain ⟨hf, rfl⟩ := h; exact decodeWord_of_family1 hf
  | call _ => obtain ⟨hf, rfl⟩ := h; exact decodeWord_of_family2 hf
  | seImm _ _ => obtain ⟨hf, rfl, rfl⟩ := h; exact decodeWord_of_family3 hf
  | sneImm _ _ => obtain ⟨hf, rfl, rfl⟩ := h; exact decodeWord_of_family4 hf
  | seReg _ _ => obtain ⟨hf, rfl, rfl⟩ := h; exact decodeWord_of_family5 hf
  | ldImm _ _ => obtain ⟨hf, rfl, rfl⟩ := h; exact decodeWord_of_family6 hf
  | addImm _ _ => obtain ⟨hf, rfl, rfl⟩ := h; exact decodeWord_of_family7 hf
  | ldReg _ _ | orReg _ _ | andReg _ _ | xorReg _ _ | addReg _ _ | subReg _ _ | subnReg _ _ =>
    obtain ⟨hf, rfl, rfl, hn⟩ := h
    rw [decodeWord_of_family8 hf]
    simp [decodeFamily8, hn]
  | shr _ | shl _ =>
    obtain ⟨hf, rfl, hn⟩ := h
    rw [decodeWord_of_family8 hf]
    simp [decodeFamily8, hn]
  | sneReg _ _ => obtain ⟨hf, rfl, rfl⟩ := h; exact decodeWord_of_family9 hf
  | ldI _ => obtain ⟨hf, rfl⟩ := h; exact decodeWord_of_familyA hf
  | jpV0 _ => obtain ⟨hf, rfl⟩ := h; exact decodeWord_of_familyB hf
  | rnd _ _ => obtain ⟨hf, rfl, rfl⟩ := h; exact decodeWord_of_familyC hf
  | drw _ _ _ => obtain ⟨hf, rfl, rfl, rfl⟩ := h; exact decodeWord_of_familyD hf
  | skp _ | sknp _ =>
    obtain ⟨hf, rfl, hn⟩ := h
    rw [decodeWord_of_familyE hf]
    simp [decodeFamilyE, hn]
  | ldVxDt _ | ldVxK _ | ldDtVx _ | ldStVx _ | addI _ | ldF _ | ldB _ | storeRegs _ | loadRegs _ =>
    obtain ⟨hf, rfl, hnn⟩ := h
    rw [decodeWord_of_familyF hf]
    simp [decodeFamilyF, hnn]

/-! ### The words that select none (R93) -/

theorem decodeFamily0_error_iff : (∃ r, decodeFamily0 w = .error r) ↔ fieldN w ∉ [0x0, 0xE] := by
  unfold decodeFamily0
  split <;> simp_all [← BitVec.toNat_inj]

theorem decodeFamily8_error_iff :
    (∃ r, decodeFamily8 w = .error r) ↔ fieldN w ∉ [0x0, 0x1, 0x2, 0x3, 0x4, 0x5, 0x6, 0x7, 0xE] := by
  unfold decodeFamily8
  split <;> simp_all [← BitVec.toNat_inj]

theorem decodeFamilyE_error_iff : (∃ r, decodeFamilyE w = .error r) ↔ fieldN w ∉ [0x1, 0xE] := by
  unfold decodeFamilyE
  split <;> simp_all [← BitVec.toNat_inj]

theorem decodeFamilyF_error_iff : (∃ r, decodeFamilyF w = .error r) ↔
    fieldNN w ∉ [0x07, 0x0A, 0x15, 0x18, 0x1E, 0x29, 0x33, 0x55, 0x65] := by
  unfold decodeFamilyF
  split <;> simp_all [← BitVec.toNat_inj]

end Dispatch

/-! ### The obligations -/

/-- Settles O2: both sides say that the word has the dispatch and operand fields of the instruction (`HasFields`). -/
theorem wordsOfAnInstructionAgreeOnUsedBits : Obligations.WordsOfAnInstructionAgreeOnUsedBits := by
  intro w i
  calc decodeWord w = .ok i ↔ HasFields w i := ⟨hasFields_of_decodeWord, decodeWord_of_hasFields⟩
    _ ↔ w &&& usedBits i = encode i &&& usedBits i := hasFields_iff_agree

/-- The canonical word agrees with itself. -/
theorem decodeWord_encode (i : Instr) : decodeWord (encode i) = .ok i :=
  (wordsOfAnInstructionAgreeOnUsedBits (encode i) i).mpr rfl

theorem decode_pair_append {hi lo : Byte} {i : Instr} (rest : List Byte)
    (h : decodeWord (wordOfBytes hi lo) = .ok i) : decode ([hi, lo] ++ rest) = .ok (i, rest) := by
  simp [decode, h]

/-- Settles O1: the canonical word decodes to its instruction (`decodeWord_encode`), and the two bytes of
`encodeBytes` make up that word again. -/
theorem decodeOfEncodeIsIdentity : Obligations.DecodeOfEncodeIsIdentity := by
  intro i rest
  have hword : decodeWord (wordOfBytes (highByte (encode i)) (lowByte (encode i))) = .ok i := by
    rw [wordOfBytes_bytes, decodeWord_encode]
  exact ⟨decodeWord_encode i, decode_pair_append rest hword⟩

/-- Settles O3: by the sixteen families; twelve select an instruction for every word, and the second level of the other
four rejects exactly the keys it does not list (`decodeFamily0_error_iff` and those beside it). -/
theorem undefinedWordsAreTheUnlistedKeys : Obligations.UndefinedWordsAreTheUnlistedKeys := by
  intro w
  obtain hf | hf | hf | hf | hf | hf | hf | hf | hf | hf | hf | hf | hf | hf | hf | hf := family_cases (fieldFamily w)
  · rw [decodeWord_of_family0 hf, decodeFamily0_error_iff]; simp [hf]
  · simp [decodeWord_of_family1 hf, hf]
  · simp [decodeWord_of_family2 hf, hf]
  · simp [decodeWord_of_family3 hf, hf]
  · simp [decodeWord_of_family4 hf, hf]
  · simp [decodeWord_of_family5 hf, hf]
  · simp [decodeWord_of_family6 hf, hf]
  · simp [decodeWord_of_family7 hf, hf]
  · rw [decodeWord_of_family8 hf, decodeFamily8_error_iff]; simp [hf]
  · simp [decodeWord_of_family9 hf, hf]
  · simp [decodeWord_of_familyA hf, hf]
  · simp [decodeWord_of_familyB hf, hf]
  · simp [decodeWord_of_familyC hf, hf]
  · simp [decodeWord_of_familyD hf, hf]
  · rw [decodeWord_of_familyE hf, decodeFamilyE_error_iff]; simp [hf]
  · rw [decodeWord_of_familyF hf, decodeFamilyF_error_iff]; simp [hf]

/-- Settles O4: twelve fixed words, each decoded by evaluation. -/
theorem exampleWordsDecode : Obligations.ExampleWordsDecode := by
  unfold Obligations.ExampleWordsDecode
  decide

end Sys2Proof

/-! ## Proofs: canonical memories (spec/10_state.md R34) -/

namespace Sys2Proof.Machine

theorem Memory.lookup_eq_none_of_forall_ne {m : Memory} {a : Nat} (h : ∀ c ∈ m, c.1 ≠ a) :
    Memory.lookup a m = none := by
  induction m with
  | nil => rfl
  | cons c m ih =>
    obtain ⟨hc, hm⟩ := List.forall_mem_cons.mp h
    exact (if_neg hc).trans (ih hm)

/-- In a list of rising addresses an entry is what its address looks up. -/
theorem Memory.mem_iff_lookup {m : Memory} (h : m.Pairwise fun c d => c.1 < d.1) (a : Nat) (v : Byte) :
    (a, v) ∈ m ↔ Memory.lookup a m = some v := by
  induction m with
  | nil => simp [Memory.lookup]
  | cons c m ih =>
    obtain ⟨hc, hm⟩ := List.pairwise_cons.mp h
    by_cases ha : c.1 = a
    · subst ha
      have hnot : (c.1, v) ∉ m := fun hmem => Nat.lt_irrefl _ (hc (c.1, v) hmem)
      simp [Memory.lookup, hnot, Prod.ext_iff, eq_comm]
    · have hne : (a, v) ≠ c := fun heq => ha (congrArg Prod.fst heq).symm
      simp [Memory.lookup, ha, hne, ih hm]

/-- The entries of a canonical memory are the addresses that do not read as the reset contents, each with what it
reads. -/
theorem Memory.mem_iff_read {font : Vector Byte 80} {m : Memory} (h : Memory.wf font m) (a : Nat) (v : Byte) :
    (a, v) ∈ m ↔ Memory.read font m a = v ∧ v ≠ memDefault font a := by
  obtain ⟨hrising, hentries⟩ := h
  unfold Memory.read
  constructor
  · intro hmem
    rw [(Memory.mem_iff_lookup hrising a v).mp hmem]
    exact ⟨rfl, (hentries _ hmem).2⟩
  · rintro ⟨hread, hne⟩
    rw [Memory.mem_iff_lookup hrising]
    cases hlookup : Memory.lookup a m with
    | none => exact absurd (by simpa [hlookup] using hread.symm) hne
    | some w => simpa [hlookup] using hread

theorem Memory.nodup_of_wf {font : Vector Byte 80} {m : Memory} (h : Memory.wf font m) : m.Nodup :=
  h.1.imp fun hlt heq => Nat.ne_of_lt hlt (congrArg Prod.fst heq)

/-- Settles O16: memories that read alike have the same entries (`Memory.mem_iff_read`), and rising addresses leave
one order for them. -/
theorem canonicalMemoriesThatReadAlikeAreEqual : Obligations.CanonicalMemoriesThatReadAlikeAreEqual := by
  intro font m m' hm hm' hread
  have hmem : ∀ c : Host.Cell, c ∈ m ↔ c ∈ m' := fun ⟨a, v⟩ => by
    rw [Memory.mem_iff_read hm, Memory.mem_iff_read hm', hread]
  have hperm : m.Perm m' :=
    (List.perm_ext_iff_of_nodup (Memory.nodup_of_wf hm) (Memory.nodup_of_wf hm')).mpr hmem
  exact hperm.eq_of_pairwise (fun c d _ _ hcd hdc => absurd hcd (Nat.lt_asymm hdc)) hm.1 hm'.1

end Sys2Proof.Machine

/-! ## Proofs: JP V0 and the return after a call (spec/40_flow.md) -/

namespace Sys2Proof.Machine

/-- Settles O22: the handler is one write of PC, of a sum that cannot reach 2^16 (`addrWord_add_regWord_toNat`). -/
theorem jumpWithOffsetAddsV0 : Obligations.JumpWithOffsetAddsV0 := by
  intro nnn s
  exact ⟨_, exec_jpV0 nnn s, addrWord_add_regWord_toNat nnn (s.v 0), State.onlyPc_setPc s _⟩

/-- Settles O23: the call leaves SP above the entry it pushed, and a return from that SP and stack pops this entry. -/
theorem returnAfterCallComesBack : Obligations.ReturnAfterCallComesBack := by
  intro nnn s hlt
  refine ⟨_, exec_call_of_lt nnn s hlt, fun u hsp hstack => ?_⟩
  have hval : u.sp.val = s.sp.val + 1 := congrArg Fin.val hsp
  have hpos : 0 < u.sp.val := by omega
  refine ⟨_, exec_ret_of_pos u hpos, ?_, ?_⟩
  · rw [State.setPc_pc, State.top_eq_stack u hpos ⟨s.sp.val, hlt⟩ hval, hstack]
    exact State.push_stack_at_sp s s.pc hlt
  · apply Fin.ext
    rw [State.setPc_sp, State.drop_sp_val, hval, Nat.add_sub_cancel]

end Sys2Proof.Machine

/-! ## Proofs: the flag handlers and RND (spec/41_alu.md section 2, decision D4) -/

namespace Sys2Proof.Machine

/-- What every handler does that writes VF and then V[X]: V[X] ends as the result, VF as the flag unless X = 0xF, and
nothing else changes. -/
theorem flag_handler_writes {s : State} {i : Instr} {x : Reg} {f : Bool} {b : Byte}
    (hexec : exec i s = .next ((s.setFlag f).setV x b)) :
    ∃ t, exec i s = .next t ∧ t.v x = b ∧ (x ≠ 15 → t.v 15 = flagByte f) ∧
      OtherRegsKept (fun r => r = x ∨ r = 15) s t ∧ OnlyRegs s t := by
  refine ⟨_, hexec, State.v_setV_self _ x b, fun hx => ?_, fun r hr => ?_, rfl, fun _ => rfl⟩
  · rw [State.v_setV, if_neg hx.symm]
    exact State.v_setV_self s vf (flagByte f)
  · obtain ⟨hne, hnvf⟩ := not_or.mp hr
    rw [State.v_setV, if_neg hne]
    exact (State.v_setFlag s r f).trans (if_neg hnvf)

theorem flagByte_decide (p : Prop) [Decidable p] : flagByte (decide p) = if p then 1 else 0 := by
  by_cases hp : p <;> simp [flagByte, hp]

/-- `State.v_setFlag` with VF written as register 15, as the statements write it. -/
theorem State.v_setFlag_15 (s : State) (r : Reg) (f : Bool) :
    (s.setFlag f).v r = if r = 15 then flagByte f else s.v r :=
  State.v_setFlag s r f

theorem flagByte_carryOut (a b : Byte) : flagByte (carryOut a b) = if 255 < a.toNat + b.toNat then 1 else 0 :=
  flagByte_decide _

theorem flagByte_noBorrow (a b : Byte) : flagByte (noBorrow a b) = if b.toNat < a.toNat then 1 else 0 :=
  flagByte_decide _

/-- Settles O27: a flag handler whose result is the byte sum, read before the flag is written. -/
theorem addWithCarryOut : Obligations.AddWithCarryOut := by
  intro x y s
  obtain ⟨t, hexec, hsum, hflag, hframe⟩ := flag_handler_writes (exec_addReg x y s)
  rw [flagByte_carryOut] at hflag
  have hmod : (t.v x).toNat = ((s.v x).toNat + (s.v y).toNat) % 256 := by rw [hsum, BitVec.toNat_add]
  exact ⟨t, hexec, hmod, hflag, hframe⟩

/-- Settles O28: a flag handler whose difference reads the registers after the flag write. -/
theorem subtractWithNoBorrow : Obligations.SubtractWithNoBorrow := by
  intro x y s
  have h := flag_handler_writes (exec_subReg x y s)
  rw [State.v_setFlag_15, State.v_setFlag_15, flagByte_noBorrow] at h
  exact h

/-- Settles O29: a flag handler whose difference reads the registers after the flag write, operands exchanged. -/
theorem reverseSubtractWithNoBorrow : Obligations.ReverseSubtractWithNoBorrow := by
  intro x y s
  have h := flag_handler_writes (exec_subnReg x y s)
  rw [State.v_setFlag_15, State.v_setFlag_15, flagByte_noBorrow] at h
  exact h

theorem flagByte_toNat (f : Bool) : (flagByte f).toNat = f.toNat := by
  cases f <;> rfl

/-- Bit 0 is the remainder by 2. -/
theorem shiftedOutLow_toNat (a : Byte) : (shiftedOutLow a).toNat = a.toNat % 2 := by
  rw [shiftedOutLow, BitVec.getLsbD, Nat.toNat_testBit]
  omega

/-- Bit 7 is the quotient by 128. -/
theorem shiftedOutHigh_toNat (a : Byte) : (shiftedOutHigh a).toNat = a.toNat / 128 := by
  rw [shiftedOutHigh, BitVec.getLsbD, Nat.toNat_testBit]
  omega

theorem shiftRight_one_toNat (a : Byte) : (a >>> 1).toNat = a.toNat / 2 := by
  rw [BitVec.toNat_ushiftRight, Nat.shiftRight_eq_div_pow]

theorem shiftLeft_one_toNat (a : Byte) : (a <<< 1).toNat = a.toNat * 2 % 256 := by
  rw [BitVec.toNat_shiftLeft, Nat.shiftLeft_eq]

/-- Settles O30: flag handlers whose shift reads V[X] after the flag write, which for X = 0xF is the flag itself. -/
theorem shiftsByOne : Obligations.ShiftsByOne := by
  intro x s
  constructor
  · obtain ⟨t, hexec, hresult, hflag, hframe⟩ := flag_handler_writes (exec_shr x s)
    rw [State.v_setFlag_15] at hresult
    refine ⟨t, hexec, fun hx => ⟨?_, ?_⟩, fun hx => ?_, hframe⟩
    · rw [hresult, if_neg hx, shiftRight_one_toNat]
    · rw [hflag hx, flagByte_toNat, shiftedOutLow_toNat]
    · subst hx
      rw [hresult, if_pos rfl]
      cases shiftedOutLow (s.v 15) <;> rfl
  · obtain ⟨t, hexec, hresult, hflag, hframe⟩ := flag_handler_writes (exec_shl x s)
    rw [State.v_setFlag_15] at hresult
    refine ⟨t, hexec, fun hx => ⟨?_, ?_⟩, fun hx => ?_, hframe⟩
    · rw [hresult, if_neg hx, shiftLeft_one_toNat]
    · rw [hflag hx, flagByte_toNat, shiftedOutHigh_toNat]
    · subst hx
      rw [hresult, if_pos rfl, shiftLeft_one_toNat, flagByte_toNat, shiftedOutHigh_toNat]
      omega

/-- Settles O31: `rndWith` is one register write, and the handler applies it to the free byte after the draw. -/
theorem randomByteIsMasked : Obligations.RandomByteIsMasked :=
  ⟨fun r nn x s => ⟨State.v_setV_self s x (r &&& nn), State.otherRegsKept_setV s x _, State.onlyRegs_setV s x _⟩,
    exec_rnd⟩

end Sys2Proof.Machine

/-! ## Proofs: the index register and memory blocks (spec/42_index_memory.md) -/

namespace Sys2Proof.Machine

theorem add_regWord_toNat (a : Word) (b : Byte) : (a + regWord b).toNat = (a.toNat + b.toNat) % 65536 := by
  rw [BitVec.toNat_add, regWord_toNat]

/-- The largest glyph address is 0x050 + 5 · 255, so nothing is cut off. -/
theorem glyphAddr_toNat (b : Byte) : (glyphAddr b).toNat = 0x050 + 5 * b.toNat := by
  rw [glyphAddr, Config.fontBase, BitVec.toNat_ofNat]
  omega

/-- Settles O33: both handlers are one write of I. -/
theorem indexArithmetic : Obligations.IndexArithmetic := fun x s =>
  ⟨⟨_, exec_addI x s, add_regWord_toNat s.i (s.v x), State.onlyI_setI s _⟩,
    ⟨_, exec_ldF x s, glyphAddr_toNat (s.v x), State.onlyI_setI s _⟩⟩

/-- Settles O34: the handler is one block write of the three digits, each below 10. -/
theorem bcdDigitsAreStored : Obligations.BcdDigitsAreStored := by
  intro x s hin
  have hdigit : ∀ d, d < 256 → (BitVec.ofNat 8 d).toNat = d := fun d hd => by
    rw [BitVec.toNat_ofNat, Nat.mod_eq_of_lt hd]
  have hbyte : ∀ k < 3, (s.setBytes s.i.toNat (bcdDigits (s.v x))).byte (s.i.toNat + k) =
      (bcdDigits (s.v x)).getD k 0 := fun k hk => State.byte_setBytes_of_lt s s.i.toNat hk
  refine ⟨_, exec_ldB_of_inRange x hin, ?_, ?_, ?_, State.onlyBytes_setBytes s s.i.toNat (bcdDigits (s.v x))⟩
  · exact (congrArg BitVec.toNat (hbyte 0 (by omega))).trans (hdigit _ (by omega))
  · exact (congrArg BitVec.toNat (hbyte 1 (by omega))).trans (hdigit _ (by omega))
  · exact (congrArg BitVec.toNat (hbyte 2 (by omega))).trans (hdigit _ (by omega))

/-- Settles O35: the handler is one block write of V0 to VX. -/
theorem registersAreStored : Obligations.RegistersAreStored := by
  intro x s hin
  have hframe := State.onlyBytes_setBytes s s.i.toNat (s.regsUpTo x)
  rw [State.length_regsUpTo] at hframe
  refine ⟨_, exec_storeRegs_of_inRange hin, fun k hk => ?_, hframe⟩
  have hlt : k.val < (s.regsUpTo x).length := by
    rw [State.length_regsUpTo]
    omega
  rw [State.byte_setBytes_of_lt s s.i.toNat hlt, State.getD_regsUpTo s x k hk]

/-- Settles O36: the handler is one block load, register by register (`State.v_loadV`). -/
theorem registersAreLoaded : Obligations.RegistersAreLoaded := by
  intro x s hin
  refine ⟨_, exec_loadRegs_of_inRange hin, fun k hk => ?_, fun r hr => ?_, rfl, State.loadV_byte s x _⟩
  · rw [State.v_loadV, if_pos hk]
  · rw [State.v_loadV, if_neg hr]

/-- Settles O37: the store puts V[k] at I + k and keeps I (`registersAreStored`), and the load reads it back from there
(`registersAreLoaded`), whatever the registers hold by then. -/
theorem storeThenLoadRestoresRegisters : Obligations.StoreThenLoadRestoresRegisters := by
  intro x s hin
  obtain ⟨t, hstore, hstored, hframe, _⟩ := registersAreStored x s hin
  have hi : t.i = s.i := by rw [hframe]
  refine ⟨t, hstore, fun regs => ?_⟩
  have hin' : ({ t with regs := regs } : State).i.toNat + x.val ≤ 0xFFF := by rwa [hi]
  obtain ⟨u, hload, hloaded, _⟩ := registersAreLoaded x { t with regs := regs } hin'
  refine ⟨u, hload, fun k hk => ?_⟩
  calc u.v k = t.byte (t.i.toNat + k.val) := hloaded k hk
    _ = t.byte (s.i.toNat + k.val) := by rw [hi]
    _ = s.v k := hstored k hk

end Sys2Proof.Machine

/-! ## Proofs: DRW on the pixels (spec/43_display.md sections 2 and 3) -/

namespace Sys2Proof.Machine

theorem State.pixel_of_outside {s : State} {px py : Nat} (h : ¬ (px < s.params.fbW ∧ py < s.params.fbH)) :
    s.pixel px py = false :=
  Bool.eq_false_iff.mpr fun hon => h (State.inGrid_of_pixel hon)

section DrawFrame

variable (s : State) (x y : Reg) (n : Nibble)

theorem State.drwResult_otherRegsKept : OtherRegsKept (· = 15) s (s.drwResult x y n) :=
  fun r hr => (State.v_setFlag _ r _).trans (if_neg hr)

theorem State.drwResult_onlyRegsFb : OnlyRegsFb s (s.drwResult x y n) := ⟨rfl, fun _ => rfl⟩

/-- A draw moves neither the sprite nor, where VF holds no coordinate, its origin. -/
theorem drawn_drwResult (hx : x ≠ 15) (hy : y ≠ 15) : Drawn (s.drwResult x y n) x y n = Drawn s x y n := by
  have hvx : (s.drwResult x y n).v x = s.v x := s.drwResult_otherRegsKept x y n x hx
  have hvy : (s.drwResult x y n).v y = s.v y := s.drwResult_otherRegsKept x y n y hy
  unfold Drawn
  rw [hvx, hvy]
  rfl

theorem State.drwBlit_zero : s.drwBlit x y 0 = (s.fb, false) := rfl

end DrawFrame

/-- Settles O40: the blit XORs each pixel of the grid (`State.drwResult_pixel`), and the handler writes the framebuffer
and VF alone. -/
theorem drawXorsTheClippedSprite : Obligations.DrawXorsTheClippedSprite := by
  intro x y n s hrange
  exact ⟨_, exec_drw_of_inRange x y n s hrange, fun px py hx hy => State.drwResult_pixel s x y n hx hy,
    s.drwResult_otherRegsKept x y n, s.drwResult_onlyRegsFb x y n⟩

/-- Settles O42: with no rows the blit is the framebuffer as it was and no collision. -/
theorem drawOfNoRowsClearsVf : Obligations.DrawOfNoRowsClearsVf := by
  intro x y s
  refine ⟨_, exec_drw_of_inRange x y 0 s (.inl rfl), ?_, ?_, s.drwResult_otherRegsKept x y 0,
    s.drwResult_onlyRegsFb x y 0⟩
  · rw [State.drwResult_vf, State.drwBlit_zero]
    rfl
  · rw [State.drwResult, State.setFlag_fb, State.setFb_fb, State.drwBlit_zero]

/-- Settles O43: the second draw is of the same sprite at the same place (`drawn_drwResult`), so that each pixel is
XORed twice with one bit, and it meets a lit pixel where the first one turned it on. -/
theorem drawTwiceRestoresTheFramebuffer : Obligations.DrawTwiceRestoresTheFramebuffer := by
  intro x y n s hx hy hrange
  have hdrawn : ∀ px py, Drawn (s.drwResult x y n) x y n px py = Drawn s x y n px py := fun px py =>
    congrFun (congrFun (drawn_drwResult s x y n hx hy) px) py
  refine ⟨_, _, exec_drw_of_inRange x y n s hrange, exec_drw_of_inRange x y n (s.drwResult x y n) hrange,
    fun px py => ?_, ?_, ?_⟩
  · by_cases hin : px < s.params.fbW ∧ py < s.params.fbH
    · obtain ⟨hpx, hpy⟩ := hin
      rw [State.drwResult_pixel (s.drwResult x y n) x y n hpx hpy, State.drwResult_pixel s x y n hpx hpy, hdrawn,
        Bool.xor_assoc, Bool.xor_self, Bool.xor_false]
    · rw [State.pixel_of_outside hin]
      exact State.pixel_of_outside hin
  · rw [State.drwResult_vf]
    exact flagByte_eq_zero_or_one _
  · rw [State.drwResult_vf, flagByte_eq_one_iff, State.drwBlit_hit_iff]
    refine exists_congr fun px => exists_congr fun py => and_congr_right fun hpx => and_congr_right fun hpy => ?_
    rw [hdrawn]
    refine and_congr_right fun hset => ?_
    rw [State.drwResult_pixel s x y n hpx hpy, hset, Bool.xor_true, Bool.not_eq_true']

end Sys2Proof.Machine

/-! ## Proofs: the key skips and the host's ports (spec/44_keys_timers.md, spec/10_state.md section 13) -/

namespace Sys2Proof.Machine

/-- Settles O44: both handlers are skips (`skip_moves_pc_iff`), on the key that V[X] names and on its negation. -/
theorem keySkips : Obligations.KeySkips := by
  intro x s k hk
  have hlt : (s.v x).toNat < 16 := by omega
  obtain rfl : k = ⟨(s.v x).toNat, hlt⟩ := Fin.ext hk.symm
  exact ⟨skip_moves_pc_iff (exec_skp_of_lt hlt) Iff.rfl,
    skip_moves_pc_iff (exec_sknp_of_lt hlt) (iff_of_eq (Bool.not_eq_true' _))⟩

/-- Settles O45: both handlers raise before they skip, which writes the fault record alone. -/
theorem keyIndexOutOfRangeFaults : Obligations.KeyIndexOutOfRangeFaults := fun _ s h =>
  ⟨⟨_, exec_skp_of_ge h, State.raise_faultCode s _, State.raise_pc s _⟩,
    ⟨_, exec_sknp_of_ge h, State.raise_faultCode s _, State.raise_pc s _⟩⟩

theorem hostKeyIn_key (k : BitVec 16) (s : State) (j : Fin 16) : (hostKeyIn k s).key j = k.getLsbD j.val :=
  Vector.getElem_ofFn j.isLt

/-- Settles O56: KEY_IN rebuilds the keys from the bits of the port, and FB_OUT lists the grid by the index of R180. -/
theorem keyInputAndFramebufferOutput : Obligations.KeyInputAndFramebufferOutput := by
  refine ⟨fun k s => ⟨hostKeyIn_key k s, rfl⟩, fun s x y hx hy => ?_⟩
  have hlt : y * s.params.fbW + x < s.params.fbW * s.params.fbH := pixelIndex_lt _ _ _ _ hx hy
  rw [fbOut, List.getElem?_map, List.getElem?_range hlt, State.pixel_of_inGrid s hx hy]
  rfl

end Sys2Proof.Machine
